-- ==== Sys2Proof/Word.lean ====
section
/-!
DEFINITION. The two word widths of the hardware (00_scope.md R7): every register but PC and every memory byte is 8 bits, every
address and PC is 16 bits.
-/
namespace Sys2Proof

/-- u8 (R9): A, X, Y, SP, F and every memory byte. -/
abbrev Byte := BitVec 8

/-- u16 (R9): addresses and PC. -/
abbrev Word := BitVec 16

end Sys2Proof
end

