-- ==== Sys2Proof/Machine/Alu.lean ====
section
/-!
DEFINITION. The ALU helpers of 41_alu.md: pure functions of bytes. A carry is a Bool, true for 1.
-/
namespace Sys2Proof.Machine

/-- What a binary add or subtract returns: (result, carry_out, overflow). -/
structure BinaryResult where
  value : Byte
  carry : Bool
  overflow : Bool
  deriving DecidableEq, Repr

/-- What a decimal add or subtract, a shift or a rotate returns: (result, carry_out). -/
structure CarryResult where
  value : Byte
  carry : Bool
  deriving DecidableEq, Repr

/-- `add_hex` of R110. -/
def addHex (a b : Byte) (c : Bool) : BinaryResult :=
  let sum := a.toNat + b.toNat + c.toNat
  let r := BitVec.ofNat 8 sum
  { value := r
    carry := decide (255 < sum)
    overflow := (~~~(a ^^^ b) &&& (a ^^^ r) &&& 0x80#8) != 0#8 }

/-- `subtract_hex` of R111: carry 1 means no borrow. -/
def subtractHex (a b : Byte) (c : Bool) : BinaryResult :=
  let d : Int := (a.toNat : Int) - b.toNat - (1 - (c.toNat : Int))
  let r := BitVec.ofInt 8 d
  { value := r
    carry := decide (0 ≤ d)
    overflow := ((a ^^^ b) &&& (a ^^^ r) &&& 0x80#8) != 0#8 }

/-- `min(v[3:0], 9)` of R112. -/
def lowDigit (v : Byte) : Nat := min (v.toNat % 16) 9

/-- `min(v[7:4], 9)` of R112. -/
def highDigit (v : Byte) : Nat := min (v.toNat / 16) 9

/-- `add_decimal` of R112. -/
def addDecimal (a b : Byte) (c : Bool) : CarryResult :=
  let lo := lowDigit a + lowDigit b + c.toNat
  let k := if 9 < lo then 1 else 0
  let lo' := if 9 < lo then lo - 10 else lo
  let hi := highDigit a + highDigit b + k
  let hi' := if 9 < hi then hi - 10 else hi
  { value := BitVec.ofNat 8 (hi' * 16 + lo'), carry := decide (9 < hi) }

/-- `subtract_decimal` of R113: carry 1 means no borrow leaves the high digit. -/
def subtractDecimal (a b : Byte) (c : Bool) : CarryResult :=
  let lo : Int := (lowDigit a : Int) - lowDigit b - (1 - (c.toNat : Int))
  let k : Int := if lo < 0 then 1 else 0
  let lo' : Int := if lo < 0 then lo + 10 else lo
  let hi : Int := (highDigit a : Int) - highDigit b - k
  let hi' : Int := if hi < 0 then hi + 10 else hi
  { value := BitVec.ofInt 8 (hi' * 16 + lo'), carry := decide (0 ≤ hi) }

/-- `asl` of R117 (the carry in is not used). -/
def aslByte (v : Byte) (_c : Bool) : CarryResult := { value := v <<< 1, carry := v.getLsbD 7 }

/-- `lsr` of R117 (the carry in is not used). -/
def lsrByte (v : Byte) (_c : Bool) : CarryResult := { value := v >>> 1, carry := v.getLsbD 0 }

/-- `rol` of R117. -/
def rolByte (v : Byte) (c : Bool) : CarryResult :=
  { value := (v <<< 1) ||| BitVec.ofNat 8 c.toNat, carry := v.getLsbD 7 }

/-- `ror` of R117. -/
def rorByte (v : Byte) (c : Bool) : CarryResult :=
  { value := (v >>> 1) ||| (BitVec.ofNat 8 c.toNat <<< 7), carry := v.getLsbD 0 }

/-- `inc` of R118. -/
def incByte (v : Byte) : Byte := v + 1#8

/-- `dec` of R118. -/
def decByte (v : Byte) : Byte := v - 1#8

end Sys2Proof.Machine
end

