-- ==== Sys2Proof/Machine/Bits.lean ====
section
/-!
DEFINITION. The bit-field, extension and byte-order helpers of 00_scope.md R9 and R10.
-/
namespace Sys2Proof.Machine

/-- `hi:lo` of R9: the u16 `hi * 256 + lo`. -/
def mkWord (hi lo : Byte) : Word := BitVec.ofNat 16 (hi.toNat * 256 + lo.toNat)

/-- `w[7:0]` (R9). -/
def lo8 (w : Word) : Byte := BitVec.ofNat 8 w.toNat

/-- `w[15:8]` (R9). -/
def hi8 (w : Word) : Byte := BitVec.ofNat 8 (w.toNat / 256)

/-- `page(a)` of R9, the byte `a[15:8]`. -/
def page (a : Word) : Byte := hi8 a

/-- `zext16(v)` of R10. -/
def zext16 (v : Byte) : Word := BitVec.ofNat 16 v.toNat

/-- `sext16(v)` of R10: v read as two's complement, modulo 65536. -/
def sext16 (v : Byte) : Word := BitVec.ofInt 16 v.toInt

/-- The address the stack pointer designates, `0x0100 | SP` (10_state.md R21). -/
def stackAddr (sp : Byte) : Word := 0x0100#16 ||| zext16 sp

/-- The NMI vector's address (R7, 10_state.md R37); the core never reads it (60_exceptions.md R190). -/
def nmiVector : Word := 0xFFFA#16

/-- The reset vector's address (R7, R37). -/
def resetVector : Word := 0xFFFC#16

/-- The IRQ vector's address (R7, R37), read by BRK. -/
def irqVector : Word := 0xFFFE#16

end Sys2Proof.Machine
end

