-- ==== Sys2Proof/Machine/Flags.lean ====
section
/-!
DEFINITION. The flags byte F (10_state.md, section 3): its bits, the accessors `set`, `clear` and `test` of R24, and every flag
computation the spec gives, each a function on the byte.
-/
namespace Sys2Proof.Machine

/-- The seven named flags (R23). -/
inductive Flag where
  | c | z | i | d | b | v | n
  deriving DecidableEq, Repr

/-- The bit of F that holds a flag (R23). -/
def Flag.bit : Flag → Nat
  | .c => 0
  | .z => 1
  | .i => 2
  | .d => 3
  | .b => 4
  | .v => 6
  | .n => 7

/-- `test(flag)` of R24. -/
def flagTest (f : Byte) (fl : Flag) : Bool := f.getLsbD fl.bit

/-- `set(flag)` of R24. -/
def flagSet (f : Byte) (fl : Flag) : Byte := f ||| (1#8 <<< fl.bit)

/-- `clear(flag)` of R24. -/
def flagClear (f : Byte) (fl : Flag) : Byte := f &&& ~~~(1#8 <<< fl.bit)

/-- `F.flag <- b` of 00_scope.md R11. -/
def flagPut (f : Byte) (fl : Flag) (b : Bool) : Byte := if b then flagSet f fl else flagClear f fl

/-- `SetNZ(v)` of 41_alu.md R109. -/
def setNZ (f v : Byte) : Byte := flagPut (flagPut f .n (v.getLsbD 7)) .z (v == 0#8)

/-- `compare(reg, v)` of 41_alu.md R116: C when reg >= v, N and Z from the difference modulo 256. -/
def compareFlags (f reg v : Byte) : Byte := setNZ (flagPut f .c (decide (v.toNat ≤ reg.toNat))) (reg - v)

/-- `bit_test(a, m)` of 41_alu.md R120: Z from a & m, N and V from m. -/
def bitTestFlags (f a m : Byte) : Byte :=
  flagPut (flagPut (flagPut f .z (a &&& m == 0#8)) .n (m.getLsbD 7)) .v (m.getLsbD 6)

/-- The copy of F that PHP and BRK push: bits 4 and 5 set (45_stack_flags.md R153, 46_control.md R176). -/
def pushedFlags (f : Byte) : Byte := f ||| 0x30#8

/-- The F that PLP and RTI load from a popped byte: bit 4 cleared, bit 5 forced to 1 (R155, R177). -/
def pulledFlags (v : Byte) : Byte := (v &&& 0xCF#8) ||| 0x20#8

end Sys2Proof.Machine
end

