-- ==== Sys2Proof/Config.lean ====
section
/-!
DEFINITION. What is fixed for the processor's lifetime: the configuration parameters P1 to P6 of 00_scope.md R8, and the
values the spec leaves free. P1 to P4 and the set of P6 are plain data, carried unchanged in State.cfg (log entry 3); P5 and
the answers of P6's hooks are constants with no body, so that nothing can be proved of their values (log entries 4 and 5).
-/
namespace Sys2Proof

/-- P1 ZP_INDEX_MODE (R8, D3): how Zero Page,X and Zero Page,Y add the index (40_execution.md R92). -/
inductive ZpIndexMode where
  | wrap8      -- unsigned, modulo 256: stays in the zero page
  | signed16   -- two's-complement delta with 16-bit wraparound
  deriving DecidableEq, Repr

/-- P3 JMP_IND_CYCLES (R8, D8): the base count of JMP indirect. -/
inductive JmpIndCycles where
  | five
  | six
  deriving DecidableEq, Repr

/-- P4 INDEXED_PENALTY_SCOPE (R8, D9): which opcodes pay the page penalty (40_execution.md R101). -/
inductive PenaltyScope where
  | readsOnly    -- the 23 read opcodes
  | allIndexed   -- all 32 opcodes of the three modes that can cross a page
  deriving DecidableEq, Repr

/-- The parameters of R8 that are data: P1, P2, P3, P4 and P6's `Trapped` set with the presence of each hook. -/
structure Config where
  /-- P1 -/
  zpIndexMode : ZpIndexMode
  /-- P2 JMP_IND_PAGE_WRAP: true selects the hardware erratum of R95. -/
  jmpIndPageWrap : Bool
  /-- P3 -/
  jmpIndCycles : JmpIndCycles
  /-- P4 -/
  penaltyScope : PenaltyScope
  /-- P6 `Trapped`, a set of addresses, listed in rising order. -/
  trapped : List Word
  /-- P6: ReadHook is present (20_memory.md R45: "Both are optional"). -/
  hasReadHook : Bool
  /-- P6: WriteHook is present. -/
  hasWriteHook : Bool
  deriving DecidableEq, Repr

/-- The defaults of R8: P1 Wrap8, P2 false, P3 5, P4 ReadsOnly, P6 empty. -/
def Config.standard : Config where
  zpIndexMode := .wrap8
  jmpIndPageWrap := false
  jmpIndCycles := .five
  penaltyScope := .readsOnly
  trapped := []
  hasReadHook := false
  hasWriteHook := false

/-- The operation argument of P5 (R8). -/
inductive DecimalOp where
  | adc
  | sbc
  deriving DecidableEq, Repr

/-- P5 DECIMAL_V (R8, 41_alu.md R114, D14): the V flag after a decimal ADC or SBC, a FREE VALUE: an uninterpreted function of the
operation, the operands, the carry in and the old V. Log entry 4, safe. -/
opaque Config.decimalV (op : DecimalOp) (a b : Byte) (c vOld : Bool) : Bool

/-- P6 ReadHook (20_memory.md R45, R46): what the read hook answers to its call number `n`, a read of address `a`: a FREE VALUE.
`some v` overrides the stored byte. Log entry 5. -/
opaque Config.readHook (n : Nat) (a : Word) : Option Byte

/-- P6 WriteHook (20_memory.md R45, R46): the byte that is stored when call number `n` of the hooks is a write of `v` to `a`: a FREE
VALUE. Log entry 5. -/
opaque Config.writeHook (n : Nat) (a : Word) (v : Byte) : Byte

end Sys2Proof
end

