-- ==== Sys2Proof/Machine/State.lean ====
section
/-!
DEFINITION. The state of the core (10_state.md R17) as plain data, why a step can stop, and the state right after reset.
-/
namespace Sys2Proof.Machine

/-- `status` of R35. -/
inductive Status where
  | unreset                            -- constructed, reset() not yet called
  | running
  | faulted (pc : Word) (byte : Byte)  -- a step raised IllegalOpcode(pc, byte)
  deriving DecidableEq, Repr

/-- The memory M (R36, 20_memory.md R41), 65536 bytes, as its (address, byte) pairs in rising order of address; an address
that is not listed holds 0x00 (DESIGN CHOICE, log entry 1, unsafe), and no listed byte is 0x00. -/
abbrev Memory := List Host.Cell

/-- The state tuple of R17, the configuration the model carries (log entry 3), and the model's own count of hook calls. -/
structure State where
  /-- accumulator A (R18) -/
  a : Byte
  /-- index register X (R19) -/
  x : Byte
  /-- index register Y (R20) -/
  y : Byte
  /-- stack pointer SP, an offset in page 1 (R21) -/
  sp : Byte
  /-- program counter PC (R22) -/
  pc : Word
  /-- flags byte F: N V 1 B D I Z C from bit 7 to bit 0 (R23) -/
  f : Byte
  /-- the cycle counter, unbounded (R33) -/
  tickcount : Nat
  /-- waiting_for_nmi (R34): no step reads or writes it -/
  waitingForNmi : Bool
  /-- waiting_for_irq (R34): no step reads or writes it -/
  waitingForIrq : Bool
  /-- `status` (R35) -/
  status : Status
  /-- the borrowed memory M (R36) -/
  mem : Memory
  /-- P1 to P4 and P6's set (00_scope.md R8): fixed, no step writes it (log entry 3) -/
  cfg : Config
  /-- THE MODEL'S OWN: how many calls of the trap hooks the core has made; the hooks' free answers are drawn with it
  (log entry 5) -/
  hookCalls : Nat
  deriving DecidableEq, Repr

/-- Why the machine stops. -/
inductive Fault where
  /-- Raised by `step` of a core whose status is Faulted(pc, byte): it has no step (60_exceptions.md R180), and every run returns
  this error. The step that met the illegal opcode itself answers a next state, with that status (R86, log entry 6). Safe:
  the spec gives this stop. -/
  | illegalOpcode (pc : Word) (byte : Byte)
  deriving DecidableEq, Repr

/-- Why the machine gives no meaning. -/
inductive Refusal where
  /-- The arm of `exec` of an instruction that is not modelled; no arm answers it. Safe. -/
  | notModelled (mnemonic : String)
  /-- Raised by `step` and by a run of a core that was never reset (10_state.md R35, 40_execution.md R105, D19): the spec refuses
  it. Safe. -/
  | beforeReset
  deriving DecidableEq, Repr

/-- The machine right after reset(): the values of 70_reset_and_hazards.md R199, over a newly constructed core (R198: tickcount 0,
both waiting bits false) with the default configuration (R8). PC is the word at 0xFFFC, which is 0x0000 in a memory with
nothing listed (log entries 1 and 2). -/
def State.reset : State where
  a := 0x00#8
  x := 0x00#8
  y := 0x00#8
  sp := 0xFF#8
  pc := 0x0000#16
  f := 0x24#8
  tickcount := 0
  waitingForNmi := false
  waitingForIrq := false
  status := .running
  mem := []
  cfg := Config.standard
  hookCalls := 0

end Sys2Proof.Machine
end

