-- ==== Sys2Proof/Machine/Ops.lean ====
section
/-!
DEFINITION. The named operations over memory and registers: the memory list, the register and flag updates, MemRead and
MemWrite through the trapping layer (20_memory.md), words, the stack, the cost of an instruction, taking an exception and
returning from one.
-/
namespace Sys2Proof.Machine

/-! ### The memory list -/

/-- The byte at an address: an address that is not listed holds 0x00 (log entry 1). -/
def Memory.read : Memory → Nat → Byte
  | [], _ => 0#8
  | (k, v) :: rest, a => if k = a then v else Memory.read rest a

/-- Take an address out of the list. -/
def Memory.erase : Memory → Nat → Memory
  | [], _ => []
  | (k, v) :: rest, a => if k = a then Memory.erase rest a else (k, v) :: Memory.erase rest a

/-- List a byte at its place in the rising order of addresses. -/
def Memory.insert : Memory → Nat → Byte → Memory
  | [], a, v => [(a, v)]
  | (k, w) :: rest, a, v =>
    if a < k then (a, v) :: (k, w) :: rest
    else if k = a then (a, v) :: rest
    else (k, w) :: Memory.insert rest a v

/-- Write one byte, keeping the canonical form: writing 0x00 takes the entry out. -/
def Memory.write (m : Memory) (a : Nat) (v : Byte) : Memory :=
  if v = 0#8 then Memory.erase m a else Memory.insert m a v

/-- The canonical form from a lowest address on. -/
def Memory.wfFrom (lo : Nat) : Memory → Bool
  | [] => true
  | (k, v) :: rest => decide (lo ≤ k) && decide (k < 65536) && decide (v ≠ 0#8) && Memory.wfFrom (k + 1) rest

/-- The canonical form: addresses strictly rising, each below 65536 (R41), no listed byte 0x00. -/
def Memory.wf (m : Memory) : Bool := Memory.wfFrom 0 m

/-! ### Registers and flags -/

/-- The 8-bit registers an instruction names. -/
inductive Reg where
  | a | x | y | sp
  deriving DecidableEq, Repr

def State.setA (s : State) (v : Byte) : State := { s with a := v }
def State.setX (s : State) (v : Byte) : State := { s with x := v }
def State.setY (s : State) (v : Byte) : State := { s with y := v }
def State.setSp (s : State) (v : Byte) : State := { s with sp := v }
def State.setPc (s : State) (w : Word) : State := { s with pc := w }
def State.setF (s : State) (v : Byte) : State := { s with f := v }
def State.setMem (s : State) (m : Memory) : State := { s with mem := m }
def State.setStatus (s : State) (st : Status) : State := { s with status := st }
def State.setHookCalls (s : State) (n : Nat) : State := { s with hookCalls := n }

/-- `tickcount <- tickcount + n` (00_scope.md R11). -/
def State.addTicks (s : State) (n : Nat) : State := { s with tickcount := s.tickcount + n }

/-- Read a register by name (R11). -/
def State.reg (s : State) : Reg → Byte
  | .a => s.a
  | .x => s.x
  | .y => s.y
  | .sp => s.sp

/-- Write a register by name (R11). -/
def State.setReg (s : State) : Reg → Byte → State
  | .a, v => s.setA v
  | .x, v => s.setX v
  | .y, v => s.setY v
  | .sp, v => s.setSp v

/-- `F.flag` read (R11). -/
def State.flag (s : State) (fl : Flag) : Bool := flagTest s.f fl

/-- `F.flag <- b` (R11). -/
def State.putFlag (s : State) (fl : Flag) (b : Bool) : State := s.setF (flagPut s.f fl b)

/-- `SetNZ(v)` on F (41_alu.md R109). -/
def State.putNZ (s : State) (v : Byte) : State := s.setF (setNZ s.f v)

/-! ### MemRead and MemWrite, through the trapping layer -/

/-- The byte the buffer holds at an address, `M[a]`. -/
def State.byteAt (s : State) (a : Word) : Byte := Memory.read s.mem a.toNat

/-- `M[a] <- v`. -/
def State.setByte (s : State) (a : Word) (v : Byte) : State := s.setMem (Memory.write s.mem a.toNat v)

/-- A read of this address calls the read hook (R45). -/
def trapsRead (c : Config) (a : Word) : Bool := c.hasReadHook && decide (a ∈ c.trapped)

/-- A write to this address calls the write hook (R45). -/
def trapsWrite (c : Config) (a : Word) : Bool := c.hasWriteHook && decide (a ∈ c.trapped)

/-- A byte that was read, and the state after the read: only the count of hook calls can differ. -/
structure ReadByte where
  value : Byte
  state : State
  deriving DecidableEq, Repr

/-- A word that was read, and the state after the two reads. -/
structure ReadWord where
  value : Word
  state : State
  deriving DecidableEq, Repr

/-- `MemRead(a, 1)` of R44 and R45: at a trapped address the read hook is called, a draw (R46). -/
def memRead (s : State) (a : Word) : ReadByte :=
  if trapsRead s.cfg a then
    { value := (Config.readHook s.hookCalls a).getD (s.byteAt a), state := s.setHookCalls (s.hookCalls + 1) }
  else { value := s.byteAt a, state := s }

/-- `MemWrite(a, 1, v)` of R44 and R45: at a trapped address the write hook is called, a draw (R46), and what it answers is stored. -/
def memWrite (s : State) (a : Word) (v : Byte) : State :=
  if trapsWrite s.cfg a then
    (s.setByte a (Config.writeHook s.hookCalls a v)).setHookCalls (s.hookCalls + 1)
  else s.setByte a v

/-- The word made of a byte read at `lo` and then a byte read at `hi`. -/
def readPair (s : State) (lo hi : Word) : ReadWord :=
  let l := memRead s lo
  let h := memRead l.state hi
  { value := mkWord h.value l.value, state := h.state }

/-- `ReadWord(a)` of R49: the high byte is at `a +16 1`. -/
def readWord (s : State) (a : Word) : ReadWord := readPair s a (a + 1#16)

/-- `ReadWordZP(z)` of R51: the high byte is at `z +8 1`, in the zero page. -/
def readWordZP (s : State) (z : Byte) : ReadWord := readPair s (zext16 z) (zext16 (z + 1#8))

/-- `WriteWord(a, w)` of R50; no instruction uses it. -/
def writeWord (s : State) (a w : Word) : State := memWrite (memWrite s a (lo8 w)) (a + 1#16) (hi8 w)

/-! ### The stack -/

/-- `Push8(v)` of R57: write, then decrement. -/
def push8 (s : State) (v : Byte) : State :=
  let t := memWrite s (stackAddr s.sp) v
  t.setSp (t.sp - 1#8)

/-- `Pop8()` of R58: increment, then read. -/
def pop8 (s : State) : ReadByte :=
  let t := s.setSp (s.sp + 1#8)
  memRead t (stackAddr t.sp)

/-- `Push16(w)` of R59: the high byte first. -/
def push16 (s : State) (w : Word) : State := push8 (push8 s (hi8 w)) (lo8 w)

/-- `Pop16()` of R60: the low byte first. -/
def pop16 (s : State) : ReadWord :=
  let l := pop8 s
  let h := pop8 l.state
  { value := mkWord h.value l.value, state := h.state }

/-! ### Cycles -/

/-- Whether an opcode of the three page-crossing modes reads its operand or stores to it (40_execution.md R101). -/
inductive Access where
  | reads    -- one of the 23 read opcodes
  | stores   -- a store or a read-modify-write form
  deriving DecidableEq, Repr

/-- The page penalty of R99 and R101: +1 on a crossing, where P4 makes the opcode pay it. -/
def pagePenalty (c : Config) (k : Access) (crossed : Bool) : Nat :=
  match crossed, k, c.penaltyScope with
  | false, _, _ => 0
  | true, .reads, _ => 1
  | true, .stores, .readsOnly => 0
  | true, .stores, .allIndexed => 1

/-- P3 as a count of cycles (00_scope.md R8, 40_execution.md R100). -/
def jmpIndBase (c : Config) : Nat :=
  match c.jmpIndCycles with
  | .five => 5
  | .six => 6

/-! ### Exceptions -/

/-- TAKING THE EXCEPTION IllegalOpcode(pc, byte) (40_execution.md R86, 60_exceptions.md R179): the status becomes Faulted(pc, byte)
and nothing else changes: no vector is taken and nothing is pushed. -/
def takeIllegalOpcode (s : State) (pc : Word) (byte : Byte) : State := s.setStatus (.faulted pc byte)

/-- TRAP ENTRY (60_exceptions.md R184, 46_control.md R176): push the return address, high byte first, then F with bits 4 and 5 set;
set F.I; load PC from a vector. -/
def trapEntry (s : State) (returnAddr vector : Word) : State :=
  let t := push8 (push16 s returnAddr) (pushedFlags s.f)
  let r := readWord (t.putFlag .i true) vector
  r.state.setPc r.value

/-- Load F from the stack, as PLP and RTI do (45_stack_flags.md R155). -/
def pullFlags (s : State) : State :=
  let r := pop8 s
  r.state.setF (pulledFlags r.value)

/-- TRAP RETURN (60_exceptions.md R185, 46_control.md R177): pop F, then pop PC, with no +1. -/
def trapReturn (s : State) : State :=
  let r := pop16 (pullFlags s)
  r.state.setPc r.value

/-- What a meaning answers. -/
abbrev Result := Host.Outcome State Fault Refusal

end Sys2Proof.Machine
end

