-- ==== Sys2Proof/Machine/Operands.lean ====
section
/-!
DEFINITION. The addressing-mode resolver (40_execution.md, section 2) and the operand reads and writes of R87. An operand byte
arrives here already read by the fetch (Machine/Fetch.lean), in the order and number the spec gives (log entry 7).
-/
namespace Sys2Proof.Machine

/-- The modes that yield an effective address of data, with their operand bytes (30_encoding.md R67). -/
inductive EaMode where
  | zp (z : Byte)      -- Zero Page
  | zpX (z : Byte)     -- Zero Page,X
  | zpY (z : Byte)     -- Zero Page,Y
  | abs (w : Word)     -- Absolute
  | absX (w : Word)    -- Absolute,X
  | absY (w : Word)    -- Absolute,Y
  | indX (z : Byte)    -- (Indirect,X)
  | indY (z : Byte)    -- (Indirect),Y
  deriving DecidableEq, Repr

/-- An effective address, whether a page was crossed, and the state after the pointer reads. -/
structure Resolved where
  ea : Word
  crossed : Bool
  state : State
  deriving DecidableEq, Repr

/-- The address of Zero Page,X and Zero Page,Y (R92), by P1. -/
def zpIndexed (p1 : ZpIndexMode) (z idx : Byte) : Word :=
  match p1 with
  | .wrap8 => zext16 (z + idx)
  | .signed16 => zext16 z + sext16 idx

/-- A base address plus an unsigned index, and whether the page differs (R94, R97). -/
def indexed (base : Word) (idx : Byte) (s : State) : Resolved :=
  let ea := base + zext16 idx
  { ea := ea, crossed := page base != page ea, state := s }

/-- `Resolve` for the modes of data (R91 to R94, R96, R97). -/
def resolveEa (s : State) : EaMode → Resolved
  | .zp z => { ea := zext16 z, crossed := false, state := s }
  | .zpX z => { ea := zpIndexed s.cfg.zpIndexMode z s.x, crossed := false, state := s }
  | .zpY z => { ea := zpIndexed s.cfg.zpIndexMode z s.y, crossed := false, state := s }
  | .abs w => { ea := w, crossed := false, state := s }
  | .absX w => indexed w s.x s
  | .absY w => indexed w s.y s
  | .indX z =>
    let p := readWordZP s (z + s.x)
    { ea := p.value, crossed := false, state := p.state }
  | .indY z =>
    let p := readWordZP s z
    indexed p.value p.state.y p.state

/-- The target of the Indirect mode, JMP only (R95): P2 decides where the high byte of the target is read. -/
def resolveIndirect (s : State) (ptr : Word) : ReadWord :=
  readPair s ptr
    (if s.cfg.jmpIndPageWrap then (ptr &&& 0xFF00#16) ||| ((ptr + 1#16) &&& 0x00FF#16) else ptr + 1#16)

/-- `Target(t)` of the Relative mode (R98): PC holds PC_next. -/
def branchTarget (pcNext : Word) (rel : Byte) : Word := pcNext + sext16 rel

/-- An operand that is read: an immediate byte, or a byte at an effective address. -/
inductive Source where
  | imm (v : Byte)
  | mem (m : EaMode)
  deriving DecidableEq, Repr

/-- An operand that is read and then written: the accumulator, or a byte at an effective address. -/
inductive Target where
  | acc
  | mem (m : EaMode)
  deriving DecidableEq, Repr

/-- A byte that was loaded, whether its mode crossed a page, and the state after the reads. -/
structure Loaded where
  value : Byte
  crossed : Bool
  state : State
  deriving DecidableEq, Repr

/-- `Load(opnd)` of R87 for an operand that is read. -/
def loadSource (s : State) : Source → Loaded
  | .imm v => { value := v, crossed := false, state := s }
  | .mem m =>
    let r := resolveEa s m
    let b := memRead r.state r.ea
    { value := b.value, crossed := r.crossed, state := b.state }

/-- Load the operand, put `f`'s result (from the operand and the old carry) back in its place, set C from its carry, N and Z from its
result (41_alu.md R117): one read and one write (20_memory.md R54). `base` is the base cycle count. -/
def shiftAt (op : Byte → Bool → CarryResult) (tgt : Target) (base : Nat) (s : State) : State :=
  match tgt with
  | .acc =>
    let r := op s.a (s.flag .c)
    (((s.setA r.value).putFlag .c r.carry).putNZ r.value).addTicks base
  | .mem m =>
    let e := resolveEa s m
    let b := memRead e.state e.ea
    let r := op b.value (s.flag .c)
    (((memWrite b.state e.ea r.value).putFlag .c r.carry).putNZ r.value).addTicks
      (base + pagePenalty s.cfg .stores e.crossed)

/-- INC and DEC (43_arithmetic_compare.md R138, R139): one read and one write; N and Z only. -/
def stepAt (op : Byte → Byte) (m : EaMode) (base : Nat) (s : State) : State :=
  let e := resolveEa s m
  let b := memRead e.state e.ea
  let r := op b.value
  ((memWrite b.state e.ea r).putNZ r).addTicks (base + pagePenalty s.cfg .stores e.crossed)

/-- LDA, LDX, LDY (42_load_store_transfer.md R121 to R123). -/
def loadReg (r : Reg) (src : Source) (base : Nat) (s : State) : State :=
  let l := loadSource s src
  ((l.state.setReg r l.value).putNZ l.value).addTicks (base + pagePenalty s.cfg .reads l.crossed)

/-- STA, STX, STY (R124 to R126): the target is not read. -/
def storeReg (r : Reg) (m : EaMode) (base : Nat) (s : State) : State :=
  let e := resolveEa s m
  (memWrite e.state e.ea (s.reg r)).addTicks (base + pagePenalty s.cfg .stores e.crossed)

/-- AND, ORA, EOR (44_logic_shift.md R144 to R146): A, N and Z only. -/
def logicA (op : Byte → Byte → Byte) (src : Source) (base : Nat) (s : State) : State :=
  let l := loadSource s src
  let r := op s.a l.value
  ((l.state.setA r).putNZ r).addTicks (base + pagePenalty s.cfg .reads l.crossed)

/-- CMP, CPX, CPY (43_arithmetic_compare.md R135 to R137): flags only, binary in every mode. -/
def compareReg (r : Reg) (src : Source) (base : Nat) (s : State) : State :=
  let l := loadSource s src
  (l.state.setF (compareFlags s.f (s.reg r) l.value)).addTicks (base + pagePenalty s.cfg .reads l.crossed)

/-- BIT (44_logic_shift.md R147). -/
def bitTest (m : EaMode) (base : Nat) (s : State) : State :=
  let l := loadSource s (.mem m)
  (l.state.setF (bitTestFlags s.f s.a l.value)).addTicks (base + pagePenalty s.cfg .reads l.crossed)

/-- Write A, C and V, and N and Z from the result: the common end of ADC and SBC (R133, R134). -/
def putSum (s : State) (r : CarryResult) (v : Bool) : State :=
  (((s.setA r.value).putFlag .v v).putFlag .c r.carry).putNZ r.value

/-- ADC and SBC (R133, R134): the choice between the binary and the decimal helper is made here, from F.D (41_alu.md R115); in
decimal mode V is P5's free value (R114, log entry 4). -/
def addSub (op : DecimalOp) (binary : Byte → Byte → Bool → BinaryResult) (decimal : Byte → Byte → Bool → CarryResult)
    (src : Source) (base : Nat) (s : State) : State :=
  let l := loadSource s src
  let c := s.flag .c
  let t :=
    if s.flag .d then
      putSum l.state (decimal s.a l.value c) (Config.decimalV op s.a l.value c (s.flag .v))
    else
      let r := binary s.a l.value c
      putSum l.state { value := r.value, carry := r.carry } r.overflow
  t.addTicks (base + pagePenalty s.cfg .reads l.crossed)

end Sys2Proof.Machine
end

