-- ==== Sys2Proof/Machine/Arithmetic.lean ====
section
/-!
DEFINITION. Arithmetic, compare, increment and decrement (43_arithmetic_compare.md): the meaning of each instruction. In every meaning PC already
holds PC_next, the address after the instruction's bytes (40_execution.md R85), and the instruction's cost is added to
tickcount (R99).
-/
namespace Sys2Proof.Machine

/-- INX, INY, DEX, DEY (R140 to R143): N and Z only. -/
def stepReg (op : Byte → Byte) (r : Reg) (base : Nat) (s : State) : State :=
  ((s.setReg r (op (s.reg r))).putNZ (op (s.reg r))).addTicks base

/-- ADC (Indirect,X), 0x61 (R133): 6 cycles. -/
def execAdcIndX (z : Byte) (s : State) : Result :=
  .next (addSub .adc addHex addDecimal (.mem (.indX z)) 6 s)

/-- ADC Zero Page, 0x65 (R133): 3 cycles. -/
def execAdcZp (z : Byte) (s : State) : Result :=
  .next (addSub .adc addHex addDecimal (.mem (.zp z)) 3 s)

/-- ADC Immediate, 0x69 (R133): 2 cycles. -/
def execAdcImm (v : Byte) (s : State) : Result :=
  .next (addSub .adc addHex addDecimal (.imm v) 2 s)

/-- ADC Absolute, 0x6D (R133): 4 cycles. -/
def execAdcAbs (w : Word) (s : State) : Result :=
  .next (addSub .adc addHex addDecimal (.mem (.abs w)) 4 s)

/-- ADC (Indirect),Y, 0x71 (R133): 5 cycles, +1 if crossed. -/
def execAdcIndY (z : Byte) (s : State) : Result :=
  .next (addSub .adc addHex addDecimal (.mem (.indY z)) 5 s)

/-- ADC Zero Page,X, 0x75 (R133): 4 cycles. -/
def execAdcZpX (z : Byte) (s : State) : Result :=
  .next (addSub .adc addHex addDecimal (.mem (.zpX z)) 4 s)

/-- ADC Absolute,Y, 0x79 (R133): 4 cycles, +1 if crossed. -/
def execAdcAbsY (w : Word) (s : State) : Result :=
  .next (addSub .adc addHex addDecimal (.mem (.absY w)) 4 s)

/-- ADC Absolute,X, 0x7D (R133): 4 cycles, +1 if crossed. -/
def execAdcAbsX (w : Word) (s : State) : Result :=
  .next (addSub .adc addHex addDecimal (.mem (.absX w)) 4 s)

/-- SBC (Indirect,X), 0xE1 (R134): 6 cycles. -/
def execSbcIndX (z : Byte) (s : State) : Result :=
  .next (addSub .sbc subtractHex subtractDecimal (.mem (.indX z)) 6 s)

/-- SBC Zero Page, 0xE5 (R134): 3 cycles. -/
def execSbcZp (z : Byte) (s : State) : Result :=
  .next (addSub .sbc subtractHex subtractDecimal (.mem (.zp z)) 3 s)

/-- SBC Immediate, 0xE9 (R134): 2 cycles. -/
def execSbcImm (v : Byte) (s : State) : Result :=
  .next (addSub .sbc subtractHex subtractDecimal (.imm v) 2 s)

/-- SBC Absolute, 0xED (R134): 4 cycles. -/
def execSbcAbs (w : Word) (s : State) : Result :=
  .next (addSub .sbc subtractHex subtractDecimal (.mem (.abs w)) 4 s)

/-- SBC (Indirect),Y, 0xF1 (R134): 5 cycles, +1 if crossed. -/
def execSbcIndY (z : Byte) (s : State) : Result :=
  .next (addSub .sbc subtractHex subtractDecimal (.mem (.indY z)) 5 s)

/-- SBC Zero Page,X, 0xF5 (R134): 4 cycles. -/
def execSbcZpX (z : Byte) (s : State) : Result :=
  .next (addSub .sbc subtractHex subtractDecimal (.mem (.zpX z)) 4 s)

/-- SBC Absolute,Y, 0xF9 (R134): 4 cycles, +1 if crossed. -/
def execSbcAbsY (w : Word) (s : State) : Result :=
  .next (addSub .sbc subtractHex subtractDecimal (.mem (.absY w)) 4 s)

/-- SBC Absolute,X, 0xFD (R134): 4 cycles, +1 if crossed. -/
def execSbcAbsX (w : Word) (s : State) : Result :=
  .next (addSub .sbc subtractHex subtractDecimal (.mem (.absX w)) 4 s)

/-- CMP (Indirect,X), 0xC1 (R135): 6 cycles. -/
def execCmpIndX (z : Byte) (s : State) : Result :=
  .next (compareReg .a (.mem (.indX z)) 6 s)

/-- CMP Zero Page, 0xC5 (R135): 3 cycles. -/
def execCmpZp (z : Byte) (s : State) : Result :=
  .next (compareReg .a (.mem (.zp z)) 3 s)

/-- CMP Immediate, 0xC9 (R135): 2 cycles. -/
def execCmpImm (v : Byte) (s : State) : Result :=
  .next (compareReg .a (.imm v) 2 s)

/-- CMP Absolute, 0xCD (R135): 4 cycles. -/
def execCmpAbs (w : Word) (s : State) : Result :=
  .next (compareReg .a (.mem (.abs w)) 4 s)

/-- CMP (Indirect),Y, 0xD1 (R135): 5 cycles, +1 if crossed. -/
def execCmpIndY (z : Byte) (s : State) : Result :=
  .next (compareReg .a (.mem (.indY z)) 5 s)

/-- CMP Zero Page,X, 0xD5 (R135): 4 cycles. -/
def execCmpZpX (z : Byte) (s : State) : Result :=
  .next (compareReg .a (.mem (.zpX z)) 4 s)

/-- CMP Absolute,Y, 0xD9 (R135): 4 cycles, +1 if crossed. -/
def execCmpAbsY (w : Word) (s : State) : Result :=
  .next (compareReg .a (.mem (.absY w)) 4 s)

/-- CMP Absolute,X, 0xDD (R135): 4 cycles, +1 if crossed. -/
def execCmpAbsX (w : Word) (s : State) : Result :=
  .next (compareReg .a (.mem (.absX w)) 4 s)

/-- CPX Immediate, 0xE0 (R136): 2 cycles. -/
def execCpxImm (v : Byte) (s : State) : Result :=
  .next (compareReg .x (.imm v) 2 s)

/-- CPX Zero Page, 0xE4 (R136): 3 cycles. -/
def execCpxZp (z : Byte) (s : State) : Result :=
  .next (compareReg .x (.mem (.zp z)) 3 s)

/-- CPX Absolute, 0xEC (R136): 4 cycles. -/
def execCpxAbs (w : Word) (s : State) : Result :=
  .next (compareReg .x (.mem (.abs w)) 4 s)

/-- CPY Immediate, 0xC0 (R137): 2 cycles. -/
def execCpyImm (v : Byte) (s : State) : Result :=
  .next (compareReg .y (.imm v) 2 s)

/-- CPY Zero Page, 0xC4 (R137): 3 cycles. -/
def execCpyZp (z : Byte) (s : State) : Result :=
  .next (compareReg .y (.mem (.zp z)) 3 s)

/-- CPY Absolute, 0xCC (R137): 4 cycles. -/
def execCpyAbs (w : Word) (s : State) : Result :=
  .next (compareReg .y (.mem (.abs w)) 4 s)

/-- INC Zero Page, 0xE6 (R138): 5 cycles. -/
def execIncZp (z : Byte) (s : State) : Result :=
  .next (stepAt incByte (.zp z) 5 s)

/-- INC Absolute, 0xEE (R138): 6 cycles. -/
def execIncAbs (w : Word) (s : State) : Result :=
  .next (stepAt incByte (.abs w) 6 s)

/-- INC Zero Page,X, 0xF6 (R138): 6 cycles. -/
def execIncZpX (z : Byte) (s : State) : Result :=
  .next (stepAt incByte (.zpX z) 6 s)

/-- INC Absolute,X, 0xFE (R138): 7 cycles, +1 if crossed only when P4 = AllIndexed. -/
def execIncAbsX (w : Word) (s : State) : Result :=
  .next (stepAt incByte (.absX w) 7 s)

/-- DEC Zero Page, 0xC6 (R139): 5 cycles. -/
def execDecZp (z : Byte) (s : State) : Result :=
  .next (stepAt decByte (.zp z) 5 s)

/-- DEC Absolute, 0xCE (R139): 6 cycles. -/
def execDecAbs (w : Word) (s : State) : Result :=
  .next (stepAt decByte (.abs w) 6 s)

/-- DEC Zero Page,X, 0xD6 (R139): 6 cycles. -/
def execDecZpX (z : Byte) (s : State) : Result :=
  .next (stepAt decByte (.zpX z) 6 s)

/-- DEC Absolute,X, 0xDE (R139): 7 cycles, +1 if crossed only when P4 = AllIndexed. -/
def execDecAbsX (w : Word) (s : State) : Result :=
  .next (stepAt decByte (.absX w) 7 s)

/-- INX Implied, 0xE8 (R140): 2 cycles. -/
def execInx (s : State) : Result :=
  .next (stepReg incByte .x 2 s)

/-- INY Implied, 0xC8 (R141): 2 cycles. -/
def execIny (s : State) : Result :=
  .next (stepReg incByte .y 2 s)

/-- DEX Implied, 0xCA (R142): 2 cycles. -/
def execDex (s : State) : Result :=
  .next (stepReg decByte .x 2 s)

/-- DEY Implied, 0x88 (R143): 2 cycles. -/
def execDey (s : State) : Result :=
  .next (stepReg decByte .y 2 s)

end Sys2Proof.Machine
end

