-- ==== Sys2Proof/Machine/Control.lean ====
section
/-!
DEFINITION. Branches, jumps, subroutines, BRK and RTI (46_control.md): the meaning of each instruction. In every meaning PC already
holds PC_next, the address after the instruction's bytes (40_execution.md R85), and the instruction's cost is added to
tickcount (R99).
-/
namespace Sys2Proof.Machine

/-- `Branch(cond, t)` of R164 with the cost of 40_execution.md R102: PC holds PC_next. -/
def branch (cond : Bool) (rel : Byte) (base : Nat) (s : State) : State :=
  let t := branchTarget s.pc rel
  if cond then (s.setPc t).addTicks (base + (if page t != page s.pc then 2 else 1))
  else s.addTicks base

/-- JMP indirect (R173): the target is the word at the pointer; the cost is P3. -/
def jumpIndirect (ptr : Word) (s : State) : State :=
  let r := resolveIndirect s ptr
  (r.state.setPc r.value).addTicks (jmpIndBase s.cfg)

/-- RTS (R175): pop the word and add 1. -/
def returnFromSubroutine (base : Nat) (s : State) : State :=
  let r := pop16 s
  (r.state.setPc (r.value + 1#16)).addTicks base

/-- BPL Relative, 0x10 (R165): 2 cycles, +1 taken, +2 taken across a page. -/
def execBpl (rel : Byte) (s : State) : Result :=
  .next (branch (!s.flag .n) rel 2 s)

/-- BMI Relative, 0x30 (R166): 2 cycles, +1 taken, +2 taken across a page. -/
def execBmi (rel : Byte) (s : State) : Result :=
  .next (branch (s.flag .n) rel 2 s)

/-- BVC Relative, 0x50 (R167): 2 cycles, +1 taken, +2 taken across a page. -/
def execBvc (rel : Byte) (s : State) : Result :=
  .next (branch (!s.flag .v) rel 2 s)

/-- BVS Relative, 0x70 (R168): 2 cycles, +1 taken, +2 taken across a page. -/
def execBvs (rel : Byte) (s : State) : Result :=
  .next (branch (s.flag .v) rel 2 s)

/-- BCC Relative, 0x90 (R169): 2 cycles, +1 taken, +2 taken across a page. -/
def execBcc (rel : Byte) (s : State) : Result :=
  .next (branch (!s.flag .c) rel 2 s)

/-- BCS Relative, 0xB0 (R170): 2 cycles, +1 taken, +2 taken across a page. -/
def execBcs (rel : Byte) (s : State) : Result :=
  .next (branch (s.flag .c) rel 2 s)

/-- BNE Relative, 0xD0 (R171): 2 cycles, +1 taken, +2 taken across a page. -/
def execBne (rel : Byte) (s : State) : Result :=
  .next (branch (!s.flag .z) rel 2 s)

/-- BEQ Relative, 0xF0 (R172): 2 cycles, +1 taken, +2 taken across a page. -/
def execBeq (rel : Byte) (s : State) : Result :=
  .next (branch (s.flag .z) rel 2 s)

/-- JMP Absolute, 0x4C (R173): 3 cycles. -/
def execJmpAbs (w : Word) (s : State) : Result :=
  .next ((s.setPc w).addTicks 3)

/-- JMP Indirect, 0x6C (R173): P3 cycles. -/
def execJmpInd (w : Word) (s : State) : Result :=
  .next (jumpIndirect w s)

/-- JSR Absolute, 0x20 (R174): 6 cycles. -/
def execJsr (w : Word) (s : State) : Result :=
  .next (((push16 s (s.pc - 1#16)).setPc w).addTicks 6)

/-- RTS Implied, 0x60 (R175): 6 cycles. -/
def execRts (s : State) : Result :=
  .next (returnFromSubroutine 6 s)

/-- BRK Implied, 0x00 (R176): 7 cycles. -/
def execBrk (s : State) : Result :=
  .next ((trapEntry s (s.pc + 1#16) irqVector).addTicks 7)

/-- RTI Implied, 0x40 (R177): 6 cycles. -/
def execRti (s : State) : Result :=
  .next ((trapReturn s).addTicks 6)

end Sys2Proof.Machine
end

