-- ==== Sys2Proof/Machine/LoadStore.lean ====
section
/-!
DEFINITION. Loads, stores and register transfers (42_load_store_transfer.md): the meaning of each instruction. In every meaning PC already
holds PC_next, the address after the instruction's bytes (40_execution.md R85), and the instruction's cost is added to
tickcount (R99).
-/
namespace Sys2Proof.Machine

/-- TAX, TAY, TXA, TYA, TSX (R127 to R131): copy one register to another and report it in N and Z. -/
def transfer (src dst : Reg) (base : Nat) (s : State) : State :=
  ((s.setReg dst (s.reg src)).putNZ (s.reg src)).addTicks base

/-- LDA (Indirect,X), 0xA1 (R121): 6 cycles. -/
def execLdaIndX (z : Byte) (s : State) : Result :=
  .next (loadReg .a (.mem (.indX z)) 6 s)

/-- LDA Zero Page, 0xA5 (R121): 3 cycles. -/
def execLdaZp (z : Byte) (s : State) : Result :=
  .next (loadReg .a (.mem (.zp z)) 3 s)

/-- LDA Immediate, 0xA9 (R121): 2 cycles. -/
def execLdaImm (v : Byte) (s : State) : Result :=
  .next (loadReg .a (.imm v) 2 s)

/-- LDA Absolute, 0xAD (R121): 4 cycles. -/
def execLdaAbs (w : Word) (s : State) : Result :=
  .next (loadReg .a (.mem (.abs w)) 4 s)

/-- LDA (Indirect),Y, 0xB1 (R121): 5 cycles, +1 if crossed. -/
def execLdaIndY (z : Byte) (s : State) : Result :=
  .next (loadReg .a (.mem (.indY z)) 5 s)

/-- LDA Zero Page,X, 0xB5 (R121): 4 cycles. -/
def execLdaZpX (z : Byte) (s : State) : Result :=
  .next (loadReg .a (.mem (.zpX z)) 4 s)

/-- LDA Absolute,Y, 0xB9 (R121): 4 cycles, +1 if crossed. -/
def execLdaAbsY (w : Word) (s : State) : Result :=
  .next (loadReg .a (.mem (.absY w)) 4 s)

/-- LDA Absolute,X, 0xBD (R121): 4 cycles, +1 if crossed. -/
def execLdaAbsX (w : Word) (s : State) : Result :=
  .next (loadReg .a (.mem (.absX w)) 4 s)

/-- LDX Immediate, 0xA2 (R122): 2 cycles. -/
def execLdxImm (v : Byte) (s : State) : Result :=
  .next (loadReg .x (.imm v) 2 s)

/-- LDX Zero Page, 0xA6 (R122): 3 cycles. -/
def execLdxZp (z : Byte) (s : State) : Result :=
  .next (loadReg .x (.mem (.zp z)) 3 s)

/-- LDX Absolute, 0xAE (R122): 4 cycles. -/
def execLdxAbs (w : Word) (s : State) : Result :=
  .next (loadReg .x (.mem (.abs w)) 4 s)

/-- LDX Zero Page,Y, 0xB6 (R122): 4 cycles. -/
def execLdxZpY (z : Byte) (s : State) : Result :=
  .next (loadReg .x (.mem (.zpY z)) 4 s)

/-- LDX Absolute,Y, 0xBE (R122): 4 cycles, +1 if crossed. -/
def execLdxAbsY (w : Word) (s : State) : Result :=
  .next (loadReg .x (.mem (.absY w)) 4 s)

/-- LDY Immediate, 0xA0 (R123): 2 cycles. -/
def execLdyImm (v : Byte) (s : State) : Result :=
  .next (loadReg .y (.imm v) 2 s)

/-- LDY Zero Page, 0xA4 (R123): 3 cycles. -/
def execLdyZp (z : Byte) (s : State) : Result :=
  .next (loadReg .y (.mem (.zp z)) 3 s)

/-- LDY Absolute, 0xAC (R123): 4 cycles. -/
def execLdyAbs (w : Word) (s : State) : Result :=
  .next (loadReg .y (.mem (.abs w)) 4 s)

/-- LDY Zero Page,X, 0xB4 (R123): 4 cycles. -/
def execLdyZpX (z : Byte) (s : State) : Result :=
  .next (loadReg .y (.mem (.zpX z)) 4 s)

/-- LDY Absolute,X, 0xBC (R123): 4 cycles, +1 if crossed. -/
def execLdyAbsX (w : Word) (s : State) : Result :=
  .next (loadReg .y (.mem (.absX w)) 4 s)

/-- STA (Indirect,X), 0x81 (R124): 6 cycles. -/
def execStaIndX (z : Byte) (s : State) : Result :=
  .next (storeReg .a (.indX z) 6 s)

/-- STA Zero Page, 0x85 (R124): 3 cycles. -/
def execStaZp (z : Byte) (s : State) : Result :=
  .next (storeReg .a (.zp z) 3 s)

/-- STA Absolute, 0x8D (R124): 4 cycles. -/
def execStaAbs (w : Word) (s : State) : Result :=
  .next (storeReg .a (.abs w) 4 s)

/-- STA (Indirect),Y, 0x91 (R124): 6 cycles, +1 if crossed only when P4 = AllIndexed. -/
def execStaIndY (z : Byte) (s : State) : Result :=
  .next (storeReg .a (.indY z) 6 s)

/-- STA Zero Page,X, 0x95 (R124): 4 cycles. -/
def execStaZpX (z : Byte) (s : State) : Result :=
  .next (storeReg .a (.zpX z) 4 s)

/-- STA Absolute,Y, 0x99 (R124): 5 cycles, +1 if crossed only when P4 = AllIndexed. -/
def execStaAbsY (w : Word) (s : State) : Result :=
  .next (storeReg .a (.absY w) 5 s)

/-- STA Absolute,X, 0x9D (R124): 5 cycles, +1 if crossed only when P4 = AllIndexed. -/
def execStaAbsX (w : Word) (s : State) : Result :=
  .next (storeReg .a (.absX w) 5 s)

/-- STX Zero Page, 0x86 (R125): 3 cycles. -/
def execStxZp (z : Byte) (s : State) : Result :=
  .next (storeReg .x (.zp z) 3 s)

/-- STX Absolute, 0x8E (R125): 4 cycles. -/
def execStxAbs (w : Word) (s : State) : Result :=
  .next (storeReg .x (.abs w) 4 s)

/-- STX Zero Page,Y, 0x96 (R125): 4 cycles. -/
def execStxZpY (z : Byte) (s : State) : Result :=
  .next (storeReg .x (.zpY z) 4 s)

/-- STY Zero Page, 0x84 (R126): 3 cycles. -/
def execStyZp (z : Byte) (s : State) : Result :=
  .next (storeReg .y (.zp z) 3 s)

/-- STY Absolute, 0x8C (R126): 4 cycles. -/
def execStyAbs (w : Word) (s : State) : Result :=
  .next (storeReg .y (.abs w) 4 s)

/-- STY Zero Page,X, 0x94 (R126): 4 cycles. -/
def execStyZpX (z : Byte) (s : State) : Result :=
  .next (storeReg .y (.zpX z) 4 s)

/-- TAX Implied, 0xAA (R127): 2 cycles. -/
def execTax (s : State) : Result :=
  .next (transfer .a .x 2 s)

/-- TAY Implied, 0xA8 (R128): 2 cycles. -/
def execTay (s : State) : Result :=
  .next (transfer .a .y 2 s)

/-- TXA Implied, 0x8A (R129): 2 cycles. -/
def execTxa (s : State) : Result :=
  .next (transfer .x .a 2 s)

/-- TYA Implied, 0x98 (R130): 2 cycles. -/
def execTya (s : State) : Result :=
  .next (transfer .y .a 2 s)

/-- TSX Implied, 0xBA (R131): 2 cycles. -/
def execTsx (s : State) : Result :=
  .next (transfer .sp .x 2 s)

/-- TXS Implied, 0x9A (R132): 2 cycles. -/
def execTxs (s : State) : Result :=
  .next ((s.setSp s.x).addTicks 2)

end Sys2Proof.Machine
end

