-- ==== Sys2Proof/Machine/LogicShift.lean ====
section
/-!
DEFINITION. Logic, bit test, shifts and rotates (44_logic_shift.md): the meaning of each instruction. In every meaning PC already
holds PC_next, the address after the instruction's bytes (40_execution.md R85), and the instruction's cost is added to
tickcount (R99).
-/
namespace Sys2Proof.Machine

/-- AND (Indirect,X), 0x21 (R144): 6 cycles. -/
def execAndIndX (z : Byte) (s : State) : Result :=
  .next (logicA (· &&& ·) (.mem (.indX z)) 6 s)

/-- AND Zero Page, 0x25 (R144): 3 cycles. -/
def execAndZp (z : Byte) (s : State) : Result :=
  .next (logicA (· &&& ·) (.mem (.zp z)) 3 s)

/-- AND Immediate, 0x29 (R144): 2 cycles. -/
def execAndImm (v : Byte) (s : State) : Result :=
  .next (logicA (· &&& ·) (.imm v) 2 s)

/-- AND Absolute, 0x2D (R144): 4 cycles. -/
def execAndAbs (w : Word) (s : State) : Result :=
  .next (logicA (· &&& ·) (.mem (.abs w)) 4 s)

/-- AND (Indirect),Y, 0x31 (R144): 5 cycles, +1 if crossed. -/
def execAndIndY (z : Byte) (s : State) : Result :=
  .next (logicA (· &&& ·) (.mem (.indY z)) 5 s)

/-- AND Zero Page,X, 0x35 (R144): 4 cycles. -/
def execAndZpX (z : Byte) (s : State) : Result :=
  .next (logicA (· &&& ·) (.mem (.zpX z)) 4 s)

/-- AND Absolute,Y, 0x39 (R144): 4 cycles, +1 if crossed. -/
def execAndAbsY (w : Word) (s : State) : Result :=
  .next (logicA (· &&& ·) (.mem (.absY w)) 4 s)

/-- AND Absolute,X, 0x3D (R144): 4 cycles, +1 if crossed. -/
def execAndAbsX (w : Word) (s : State) : Result :=
  .next (logicA (· &&& ·) (.mem (.absX w)) 4 s)

/-- ORA (Indirect,X), 0x01 (R145): 6 cycles. -/
def execOraIndX (z : Byte) (s : State) : Result :=
  .next (logicA (· ||| ·) (.mem (.indX z)) 6 s)

/-- ORA Zero Page, 0x05 (R145): 3 cycles. -/
def execOraZp (z : Byte) (s : State) : Result :=
  .next (logicA (· ||| ·) (.mem (.zp z)) 3 s)

/-- ORA Immediate, 0x09 (R145): 2 cycles. -/
def execOraImm (v : Byte) (s : State) : Result :=
  .next (logicA (· ||| ·) (.imm v) 2 s)

/-- ORA Absolute, 0x0D (R145): 4 cycles. -/
def execOraAbs (w : Word) (s : State) : Result :=
  .next (logicA (· ||| ·) (.mem (.abs w)) 4 s)

/-- ORA (Indirect),Y, 0x11 (R145): 5 cycles, +1 if crossed. -/
def execOraIndY (z : Byte) (s : State) : Result :=
  .next (logicA (· ||| ·) (.mem (.indY z)) 5 s)

/-- ORA Zero Page,X, 0x15 (R145): 4 cycles. -/
def execOraZpX (z : Byte) (s : State) : Result :=
  .next (logicA (· ||| ·) (.mem (.zpX z)) 4 s)

/-- ORA Absolute,Y, 0x19 (R145): 4 cycles, +1 if crossed. -/
def execOraAbsY (w : Word) (s : State) : Result :=
  .next (logicA (· ||| ·) (.mem (.absY w)) 4 s)

/-- ORA Absolute,X, 0x1D (R145): 4 cycles, +1 if crossed. -/
def execOraAbsX (w : Word) (s : State) : Result :=
  .next (logicA (· ||| ·) (.mem (.absX w)) 4 s)

/-- EOR (Indirect,X), 0x41 (R146): 6 cycles. -/
def execEorIndX (z : Byte) (s : State) : Result :=
  .next (logicA (· ^^^ ·) (.mem (.indX z)) 6 s)

/-- EOR Zero Page, 0x45 (R146): 3 cycles. -/
def execEorZp (z : Byte) (s : State) : Result :=
  .next (logicA (· ^^^ ·) (.mem (.zp z)) 3 s)

/-- EOR Immediate, 0x49 (R146): 2 cycles. -/
def execEorImm (v : Byte) (s : State) : Result :=
  .next (logicA (· ^^^ ·) (.imm v) 2 s)

/-- EOR Absolute, 0x4D (R146): 4 cycles. -/
def execEorAbs (w : Word) (s : State) : Result :=
  .next (logicA (· ^^^ ·) (.mem (.abs w)) 4 s)

/-- EOR (Indirect),Y, 0x51 (R146): 5 cycles, +1 if crossed. -/
def execEorIndY (z : Byte) (s : State) : Result :=
  .next (logicA (· ^^^ ·) (.mem (.indY z)) 5 s)

/-- EOR Zero Page,X, 0x55 (R146): 4 cycles. -/
def execEorZpX (z : Byte) (s : State) : Result :=
  .next (logicA (· ^^^ ·) (.mem (.zpX z)) 4 s)

/-- EOR Absolute,Y, 0x59 (R146): 4 cycles, +1 if crossed. -/
def execEorAbsY (w : Word) (s : State) : Result :=
  .next (logicA (· ^^^ ·) (.mem (.absY w)) 4 s)

/-- EOR Absolute,X, 0x5D (R146): 4 cycles, +1 if crossed. -/
def execEorAbsX (w : Word) (s : State) : Result :=
  .next (logicA (· ^^^ ·) (.mem (.absX w)) 4 s)

/-- BIT Zero Page, 0x24 (R147): 3 cycles. -/
def execBitZp (z : Byte) (s : State) : Result :=
  .next (bitTest (.zp z) 3 s)

/-- BIT Absolute, 0x2C (R147): 4 cycles. -/
def execBitAbs (w : Word) (s : State) : Result :=
  .next (bitTest (.abs w) 4 s)

/-- ASL Zero Page, 0x06 (R148): 5 cycles. -/
def execAslZp (z : Byte) (s : State) : Result :=
  .next (shiftAt aslByte (.mem (.zp z)) 5 s)

/-- ASL Accumulator, 0x0A (R148): 2 cycles. -/
def execAslA (s : State) : Result :=
  .next (shiftAt aslByte .acc 2 s)

/-- ASL Absolute, 0x0E (R148): 6 cycles. -/
def execAslAbs (w : Word) (s : State) : Result :=
  .next (shiftAt aslByte (.mem (.abs w)) 6 s)

/-- ASL Zero Page,X, 0x16 (R148): 6 cycles. -/
def execAslZpX (z : Byte) (s : State) : Result :=
  .next (shiftAt aslByte (.mem (.zpX z)) 6 s)

/-- ASL Absolute,X, 0x1E (R148): 7 cycles, +1 if crossed only when P4 = AllIndexed. -/
def execAslAbsX (w : Word) (s : State) : Result :=
  .next (shiftAt aslByte (.mem (.absX w)) 7 s)

/-- LSR Zero Page, 0x46 (R149): 5 cycles. -/
def execLsrZp (z : Byte) (s : State) : Result :=
  .next (shiftAt lsrByte (.mem (.zp z)) 5 s)

/-- LSR Accumulator, 0x4A (R149): 2 cycles. -/
def execLsrA (s : State) : Result :=
  .next (shiftAt lsrByte .acc 2 s)

/-- LSR Absolute, 0x4E (R149): 6 cycles. -/
def execLsrAbs (w : Word) (s : State) : Result :=
  .next (shiftAt lsrByte (.mem (.abs w)) 6 s)

/-- LSR Zero Page,X, 0x56 (R149): 6 cycles. -/
def execLsrZpX (z : Byte) (s : State) : Result :=
  .next (shiftAt lsrByte (.mem (.zpX z)) 6 s)

/-- LSR Absolute,X, 0x5E (R149): 7 cycles, +1 if crossed only when P4 = AllIndexed. -/
def execLsrAbsX (w : Word) (s : State) : Result :=
  .next (shiftAt lsrByte (.mem (.absX w)) 7 s)

/-- ROL Zero Page, 0x26 (R150): 5 cycles. -/
def execRolZp (z : Byte) (s : State) : Result :=
  .next (shiftAt rolByte (.mem (.zp z)) 5 s)

/-- ROL Accumulator, 0x2A (R150): 2 cycles. -/
def execRolA (s : State) : Result :=
  .next (shiftAt rolByte .acc 2 s)

/-- ROL Absolute, 0x2E (R150): 6 cycles. -/
def execRolAbs (w : Word) (s : State) : Result :=
  .next (shiftAt rolByte (.mem (.abs w)) 6 s)

/-- ROL Zero Page,X, 0x36 (R150): 6 cycles. -/
def execRolZpX (z : Byte) (s : State) : Result :=
  .next (shiftAt rolByte (.mem (.zpX z)) 6 s)

/-- ROL Absolute,X, 0x3E (R150): 7 cycles, +1 if crossed only when P4 = AllIndexed. -/
def execRolAbsX (w : Word) (s : State) : Result :=
  .next (shiftAt rolByte (.mem (.absX w)) 7 s)

/-- ROR Zero Page, 0x66 (R151): 5 cycles. -/
def execRorZp (z : Byte) (s : State) : Result :=
  .next (shiftAt rorByte (.mem (.zp z)) 5 s)

/-- ROR Accumulator, 0x6A (R151): 2 cycles. -/
def execRorA (s : State) : Result :=
  .next (shiftAt rorByte .acc 2 s)

/-- ROR Absolute, 0x6E (R151): 6 cycles. -/
def execRorAbs (w : Word) (s : State) : Result :=
  .next (shiftAt rorByte (.mem (.abs w)) 6 s)

/-- ROR Zero Page,X, 0x76 (R151): 6 cycles. -/
def execRorZpX (z : Byte) (s : State) : Result :=
  .next (shiftAt rorByte (.mem (.zpX z)) 6 s)

/-- ROR Absolute,X, 0x7E (R151): 7 cycles, +1 if crossed only when P4 = AllIndexed. -/
def execRorAbsX (w : Word) (s : State) : Result :=
  .next (shiftAt rorByte (.mem (.absX w)) 7 s)

end Sys2Proof.Machine
end

