-- ==== Sys2Proof/Machine/StackFlags.lean ====
section
/-!
DEFINITION. Stack, flag and no-operation instructions (45_stack_flags.md): the meaning of each instruction. In every meaning PC already
holds PC_next, the address after the instruction's bytes (40_execution.md R85), and the instruction's cost is added to
tickcount (R99).
-/
namespace Sys2Proof.Machine

/-- PLA (R154): pop A and report it in N and Z. -/
def pullA (base : Nat) (s : State) : State :=
  let r := pop8 s
  ((r.state.setA r.value).putNZ r.value).addTicks base

/-- PHA Implied, 0x48 (R152): 3 cycles. -/
def execPha (s : State) : Result :=
  .next ((push8 s s.a).addTicks 3)

/-- PHP Implied, 0x08 (R153): 3 cycles. -/
def execPhp (s : State) : Result :=
  .next ((push8 s (pushedFlags s.f)).addTicks 3)

/-- PLA Implied, 0x68 (R154): 4 cycles. -/
def execPla (s : State) : Result :=
  .next (pullA 4 s)

/-- PLP Implied, 0x28 (R155): 4 cycles. -/
def execPlp (s : State) : Result :=
  .next ((pullFlags s).addTicks 4)

/-- CLC Implied, 0x18 (R156): 2 cycles. -/
def execClc (s : State) : Result :=
  .next ((s.setF (flagClear s.f .c)).addTicks 2)

/-- SEC Implied, 0x38 (R157): 2 cycles. -/
def execSec (s : State) : Result :=
  .next ((s.setF (flagSet s.f .c)).addTicks 2)

/-- CLI Implied, 0x58 (R158): 2 cycles. -/
def execCli (s : State) : Result :=
  .next ((s.setF (flagClear s.f .i)).addTicks 2)

/-- SEI Implied, 0x78 (R159): 2 cycles. -/
def execSei (s : State) : Result :=
  .next ((s.setF (flagSet s.f .i)).addTicks 2)

/-- CLD Implied, 0xD8 (R160): 2 cycles. -/
def execCld (s : State) : Result :=
  .next ((s.setF (flagClear s.f .d)).addTicks 2)

/-- SED Implied, 0xF8 (R161): 2 cycles. -/
def execSed (s : State) : Result :=
  .next ((s.setF (flagSet s.f .d)).addTicks 2)

/-- CLV Implied, 0xB8 (R162): 2 cycles. -/
def execClv (s : State) : Result :=
  .next ((s.setF (flagClear s.f .v)).addTicks 2)

/-- NOP Implied, 0xEA (R163): 2 cycles. -/
def execNop (s : State) : Result :=
  .next (s.addTicks 2)

end Sys2Proof.Machine
end

