-- ==== Sys2Proof/Syntax.lean ====
section
/-!
DEFINITION. The instructions: one constructor per row of spec/opcode_table.json (30_encoding.md R77), that is per (mnemonic,
addressing mode), carrying the operand the operand bytes spell: `v` an immediate byte, `z` a zero-page address, `rel` a
signed offset, `w` a 16-bit address, low byte first in memory (R72 to R75).
-/
namespace Sys2Proof

/-- One instruction (R76). -/
inductive Instr where
  -- Loads, stores and register transfers (42_load_store_transfer.md)
  | ldaIndX (z : Byte)    -- 0xA1 LDA ($nn,X) (R121)
  | ldaZp (z : Byte)      -- 0xA5 LDA $nn (R121)
  | ldaImm (v : Byte)     -- 0xA9 LDA #$nn (R121)
  | ldaAbs (w : Word)     -- 0xAD LDA $nnnn (R121)
  | ldaIndY (z : Byte)    -- 0xB1 LDA ($nn),Y (R121)
  | ldaZpX (z : Byte)     -- 0xB5 LDA $nn,X (R121)
  | ldaAbsY (w : Word)    -- 0xB9 LDA $nnnn,Y (R121)
  | ldaAbsX (w : Word)    -- 0xBD LDA $nnnn,X (R121)
  | ldxImm (v : Byte)     -- 0xA2 LDX #$nn (R122)
  | ldxZp (z : Byte)      -- 0xA6 LDX $nn (R122)
  | ldxAbs (w : Word)     -- 0xAE LDX $nnnn (R122)
  | ldxZpY (z : Byte)     -- 0xB6 LDX $nn,Y (R122)
  | ldxAbsY (w : Word)    -- 0xBE LDX $nnnn,Y (R122)
  | ldyImm (v : Byte)     -- 0xA0 LDY #$nn (R123)
  | ldyZp (z : Byte)      -- 0xA4 LDY $nn (R123)
  | ldyAbs (w : Word)     -- 0xAC LDY $nnnn (R123)
  | ldyZpX (z : Byte)     -- 0xB4 LDY $nn,X (R123)
  | ldyAbsX (w : Word)    -- 0xBC LDY $nnnn,X (R123)
  | staIndX (z : Byte)    -- 0x81 STA ($nn,X) (R124)
  | staZp (z : Byte)      -- 0x85 STA $nn (R124)
  | staAbs (w : Word)     -- 0x8D STA $nnnn (R124)
  | staIndY (z : Byte)    -- 0x91 STA ($nn),Y (R124)
  | staZpX (z : Byte)     -- 0x95 STA $nn,X (R124)
  | staAbsY (w : Word)    -- 0x99 STA $nnnn,Y (R124)
  | staAbsX (w : Word)    -- 0x9D STA $nnnn,X (R124)
  | stxZp (z : Byte)      -- 0x86 STX $nn (R125)
  | stxAbs (w : Word)     -- 0x8E STX $nnnn (R125)
  | stxZpY (z : Byte)     -- 0x96 STX $nn,Y (R125)
  | styZp (z : Byte)      -- 0x84 STY $nn (R126)
  | styAbs (w : Word)     -- 0x8C STY $nnnn (R126)
  | styZpX (z : Byte)     -- 0x94 STY $nn,X (R126)
  | tax                   -- 0xAA TAX (R127)
  | tay                   -- 0xA8 TAY (R128)
  | txa                   -- 0x8A TXA (R129)
  | tya                   -- 0x98 TYA (R130)
  | tsx                   -- 0xBA TSX (R131)
  | txs                   -- 0x9A TXS (R132)
  -- Arithmetic, compare, increment and decrement (43_arithmetic_compare.md)
  | adcIndX (z : Byte)    -- 0x61 ADC ($nn,X) (R133)
  | adcZp (z : Byte)      -- 0x65 ADC $nn (R133)
  | adcImm (v : Byte)     -- 0x69 ADC #$nn (R133)
  | adcAbs (w : Word)     -- 0x6D ADC $nnnn (R133)
  | adcIndY (z : Byte)    -- 0x71 ADC ($nn),Y (R133)
  | adcZpX (z : Byte)     -- 0x75 ADC $nn,X (R133)
  | adcAbsY (w : Word)    -- 0x79 ADC $nnnn,Y (R133)
  | adcAbsX (w : Word)    -- 0x7D ADC $nnnn,X (R133)
  | sbcIndX (z : Byte)    -- 0xE1 SBC ($nn,X) (R134)
  | sbcZp (z : Byte)      -- 0xE5 SBC $nn (R134)
  | sbcImm (v : Byte)     -- 0xE9 SBC #$nn (R134)
  | sbcAbs (w : Word)     -- 0xED SBC $nnnn (R134)
  | sbcIndY (z : Byte)    -- 0xF1 SBC ($nn),Y (R134)
  | sbcZpX (z : Byte)     -- 0xF5 SBC $nn,X (R134)
  | sbcAbsY (w : Word)    -- 0xF9 SBC $nnnn,Y (R134)
  | sbcAbsX (w : Word)    -- 0xFD SBC $nnnn,X (R134)
  | cmpIndX (z : Byte)    -- 0xC1 CMP ($nn,X) (R135)
  | cmpZp (z : Byte)      -- 0xC5 CMP $nn (R135)
  | cmpImm (v : Byte)     -- 0xC9 CMP #$nn (R135)
  | cmpAbs (w : Word)     -- 0xCD CMP $nnnn (R135)
  | cmpIndY (z : Byte)    -- 0xD1 CMP ($nn),Y (R135)
  | cmpZpX (z : Byte)     -- 0xD5 CMP $nn,X (R135)
  | cmpAbsY (w : Word)    -- 0xD9 CMP $nnnn,Y (R135)
  | cmpAbsX (w : Word)    -- 0xDD CMP $nnnn,X (R135)
  | cpxImm (v : Byte)     -- 0xE0 CPX #$nn (R136)
  | cpxZp (z : Byte)      -- 0xE4 CPX $nn (R136)
  | cpxAbs (w : Word)     -- 0xEC CPX $nnnn (R136)
  | cpyImm (v : Byte)     -- 0xC0 CPY #$nn (R137)
  | cpyZp (z : Byte)      -- 0xC4 CPY $nn (R137)
  | cpyAbs (w : Word)     -- 0xCC CPY $nnnn (R137)
  | incZp (z : Byte)      -- 0xE6 INC $nn (R138)
  | incAbs (w : Word)     -- 0xEE INC $nnnn (R138)
  | incZpX (z : Byte)     -- 0xF6 INC $nn,X (R138)
  | incAbsX (w : Word)    -- 0xFE INC $nnnn,X (R138)
  | decZp (z : Byte)      -- 0xC6 DEC $nn (R139)
  | decAbs (w : Word)     -- 0xCE DEC $nnnn (R139)
  | decZpX (z : Byte)     -- 0xD6 DEC $nn,X (R139)
  | decAbsX (w : Word)    -- 0xDE DEC $nnnn,X (R139)
  | inx                   -- 0xE8 INX (R140)
  | iny                   -- 0xC8 INY (R141)
  | dex                   -- 0xCA DEX (R142)
  | dey                   -- 0x88 DEY (R143)
  -- Logic, bit test, shifts and rotates (44_logic_shift.md)
  | andIndX (z : Byte)    -- 0x21 AND ($nn,X) (R144)
  | andZp (z : Byte)      -- 0x25 AND $nn (R144)
  | andImm (v : Byte)     -- 0x29 AND #$nn (R144)
  | andAbs (w : Word)     -- 0x2D AND $nnnn (R144)
  | andIndY (z : Byte)    -- 0x31 AND ($nn),Y (R144)
  | andZpX (z : Byte)     -- 0x35 AND $nn,X (R144)
  | andAbsY (w : Word)    -- 0x39 AND $nnnn,Y (R144)
  | andAbsX (w : Word)    -- 0x3D AND $nnnn,X (R144)
  | oraIndX (z : Byte)    -- 0x01 ORA ($nn,X) (R145)
  | oraZp (z : Byte)      -- 0x05 ORA $nn (R145)
  | oraImm (v : Byte)     -- 0x09 ORA #$nn (R145)
  | oraAbs (w : Word)     -- 0x0D ORA $nnnn (R145)
  | oraIndY (z : Byte)    -- 0x11 ORA ($nn),Y (R145)
  | oraZpX (z : Byte)     -- 0x15 ORA $nn,X (R145)
  | oraAbsY (w : Word)    -- 0x19 ORA $nnnn,Y (R145)
  | oraAbsX (w : Word)    -- 0x1D ORA $nnnn,X (R145)
  | eorIndX (z : Byte)    -- 0x41 EOR ($nn,X) (R146)
  | eorZp (z : Byte)      -- 0x45 EOR $nn (R146)
  | eorImm (v : Byte)     -- 0x49 EOR #$nn (R146)
  | eorAbs (w : Word)     -- 0x4D EOR $nnnn (R146)
  | eorIndY (z : Byte)    -- 0x51 EOR ($nn),Y (R146)
  | eorZpX (z : Byte)     -- 0x55 EOR $nn,X (R146)
  | eorAbsY (w : Word)    -- 0x59 EOR $nnnn,Y (R146)
  | eorAbsX (w : Word)    -- 0x5D EOR $nnnn,X (R146)
  | bitZp (z : Byte)      -- 0x24 BIT $nn (R147)
  | bitAbs (w : Word)     -- 0x2C BIT $nnnn (R147)
  | aslZp (z : Byte)      -- 0x06 ASL $nn (R148)
  | aslA                  -- 0x0A ASL A (R148)
  | aslAbs (w : Word)     -- 0x0E ASL $nnnn (R148)
  | aslZpX (z : Byte)     -- 0x16 ASL $nn,X (R148)
  | aslAbsX (w : Word)    -- 0x1E ASL $nnnn,X (R148)
  | lsrZp (z : Byte)      -- 0x46 LSR $nn (R149)
  | lsrA                  -- 0x4A LSR A (R149)
  | lsrAbs (w : Word)     -- 0x4E LSR $nnnn (R149)
  | lsrZpX (z : Byte)     -- 0x56 LSR $nn,X (R149)
  | lsrAbsX (w : Word)    -- 0x5E LSR $nnnn,X (R149)
  | rolZp (z : Byte)      -- 0x26 ROL $nn (R150)
  | rolA                  -- 0x2A ROL A (R150)
  | rolAbs (w : Word)     -- 0x2E ROL $nnnn (R150)
  | rolZpX (z : Byte)     -- 0x36 ROL $nn,X (R150)
  | rolAbsX (w : Word)    -- 0x3E ROL $nnnn,X (R150)
  | rorZp (z : Byte)      -- 0x66 ROR $nn (R151)
  | rorA                  -- 0x6A ROR A (R151)
  | rorAbs (w : Word)     -- 0x6E ROR $nnnn (R151)
  | rorZpX (z : Byte)     -- 0x76 ROR $nn,X (R151)
  | rorAbsX (w : Word)    -- 0x7E ROR $nnnn,X (R151)
  -- Stack, flag and no-operation instructions (45_stack_flags.md)
  | pha                   -- 0x48 PHA (R152)
  | php                   -- 0x08 PHP (R153)
  | pla                   -- 0x68 PLA (R154)
  | plp                   -- 0x28 PLP (R155)
  | clc                   -- 0x18 CLC (R156)
  | sec                   -- 0x38 SEC (R157)
  | cli                   -- 0x58 CLI (R158)
  | sei                   -- 0x78 SEI (R159)
  | cld                   -- 0xD8 CLD (R160)
  | sed                   -- 0xF8 SED (R161)
  | clv                   -- 0xB8 CLV (R162)
  | nop                   -- 0xEA NOP (R163)
  -- Branches, jumps, subroutines, BRK and RTI (46_control.md)
  | bpl (rel : Byte)      -- 0x10 BPL label (R165)
  | bmi (rel : Byte)      -- 0x30 BMI label (R166)
  | bvc (rel : Byte)      -- 0x50 BVC label (R167)
  | bvs (rel : Byte)      -- 0x70 BVS label (R168)
  | bcc (rel : Byte)      -- 0x90 BCC label (R169)
  | bcs (rel : Byte)      -- 0xB0 BCS label (R170)
  | bne (rel : Byte)      -- 0xD0 BNE label (R171)
  | beq (rel : Byte)      -- 0xF0 BEQ label (R172)
  | jmpAbs (w : Word)     -- 0x4C JMP $nnnn (R173)
  | jmpInd (w : Word)     -- 0x6C JMP ($nnnn) (R173)
  | jsr (w : Word)        -- 0x20 JSR $nnnn (R174)
  | rts                   -- 0x60 RTS (R175)
  | brk                   -- 0x00 BRK (R176)
  | rti                   -- 0x40 RTI (R177)
  deriving DecidableEq, Repr

end Sys2Proof
end

