-- ==== Sys2Proof/WellFormed.lean ====
section
/-!
DEFINITION. Which terms are well formed. An operand of an instruction has the width of its field by its type (30_encoding.md
R69, R70), every value of the field is legal, and an assembled instruction has no other part, so every term of Instr is a
well-formed instruction. A configuration is well formed when the set of trapped addresses is listed in rising order
without repeats, so that equal sets are equal data.
-/
namespace Sys2Proof

/-- Every instruction term is well formed: no operand value is reserved (30_encoding.md R79). -/
def Instr.wellFormed (_i : Instr) : Bool := true

/-- Addresses strictly rising. -/
def risingAddresses : List Word → Bool
  | [] => true
  | [_] => true
  | a :: b :: rest => decide (a.toNat < b.toNat) && risingAddresses (b :: rest)

/-- The set of trapped addresses (P6, 00_scope.md R8) is listed in its one canonical form. -/
def Config.wellFormed (c : Config) : Bool := risingAddresses c.trapped

end Sys2Proof
end

