-- ==== Sys2Proof/Decode.lean ====
section
/-!
DEFINITION. Decoding (30_encoding.md) and, after it, the encoder. The opcode byte is decoded whole, as an index into a 256-entry
table (R71, R76); it alone fixes the length (R67, R80). The rows of the table are those of the map in section 4 of
30_encoding.md, high nibble by high nibble, and the constructor of Instr names the mnemonic and the mode.
-/
namespace Sys2Proof

/-- A table entry: an unmapped byte (R78), or an instruction of format 1, 2 or 3 (R68, R69, R70) waiting for its operand. -/
inductive Entry where
  | illegal
  | one (i : Instr)
  | two (mk : Byte → Instr)
  | three (mk : Word → Instr)

/-- Bytes 0x00 to 0x0F of the map (R77). -/
def opcodeRow0 : List Entry :=
  [.one .brk, .two .oraIndX, .illegal, .illegal,
   .illegal, .two .oraZp, .two .aslZp, .illegal,
   .one .php, .two .oraImm, .one .aslA, .illegal,
   .illegal, .three .oraAbs, .three .aslAbs, .illegal]

/-- Bytes 0x10 to 0x1F of the map (R77). -/
def opcodeRow1 : List Entry :=
  [.two .bpl, .two .oraIndY, .illegal, .illegal,
   .illegal, .two .oraZpX, .two .aslZpX, .illegal,
   .one .clc, .three .oraAbsY, .illegal, .illegal,
   .illegal, .three .oraAbsX, .three .aslAbsX, .illegal]

/-- Bytes 0x20 to 0x2F of the map (R77). -/
def opcodeRow2 : List Entry :=
  [.three .jsr, .two .andIndX, .illegal, .illegal,
   .two .bitZp, .two .andZp, .two .rolZp, .illegal,
   .one .plp, .two .andImm, .one .rolA, .illegal,
   .three .bitAbs, .three .andAbs, .three .rolAbs, .illegal]

/-- Bytes 0x30 to 0x3F of the map (R77). -/
def opcodeRow3 : List Entry :=
  [.two .bmi, .two .andIndY, .illegal, .illegal,
   .illegal, .two .andZpX, .two .rolZpX, .illegal,
   .one .sec, .three .andAbsY, .illegal, .illegal,
   .illegal, .three .andAbsX, .three .rolAbsX, .illegal]

/-- Bytes 0x40 to 0x4F of the map (R77). -/
def opcodeRow4 : List Entry :=
  [.one .rti, .two .eorIndX, .illegal, .illegal,
   .illegal, .two .eorZp, .two .lsrZp, .illegal,
   .one .pha, .two .eorImm, .one .lsrA, .illegal,
   .three .jmpAbs, .three .eorAbs, .three .lsrAbs, .illegal]

/-- Bytes 0x50 to 0x5F of the map (R77). -/
def opcodeRow5 : List Entry :=
  [.two .bvc, .two .eorIndY, .illegal, .illegal,
   .illegal, .two .eorZpX, .two .lsrZpX, .illegal,
   .one .cli, .three .eorAbsY, .illegal, .illegal,
   .illegal, .three .eorAbsX, .three .lsrAbsX, .illegal]

/-- Bytes 0x60 to 0x6F of the map (R77). -/
def opcodeRow6 : List Entry :=
  [.one .rts, .two .adcIndX, .illegal, .illegal,
   .illegal, .two .adcZp, .two .rorZp, .illegal,
   .one .pla, .two .adcImm, .one .rorA, .illegal,
   .three .jmpInd, .three .adcAbs, .three .rorAbs, .illegal]

/-- Bytes 0x70 to 0x7F of the map (R77). -/
def opcodeRow7 : List Entry :=
  [.two .bvs, .two .adcIndY, .illegal, .illegal,
   .illegal, .two .adcZpX, .two .rorZpX, .illegal,
   .one .sei, .three .adcAbsY, .illegal, .illegal,
   .illegal, .three .adcAbsX, .three .rorAbsX, .illegal]

/-- Bytes 0x80 to 0x8F of the map (R77). -/
def opcodeRow8 : List Entry :=
  [.illegal, .two .staIndX, .illegal, .illegal,
   .two .styZp, .two .staZp, .two .stxZp, .illegal,
   .one .dey, .illegal, .one .txa, .illegal,
   .three .styAbs, .three .staAbs, .three .stxAbs, .illegal]

/-- Bytes 0x90 to 0x9F of the map (R77). -/
def opcodeRow9 : List Entry :=
  [.two .bcc, .two .staIndY, .illegal, .illegal,
   .two .styZpX, .two .staZpX, .two .stxZpY, .illegal,
   .one .tya, .three .staAbsY, .one .txs, .illegal,
   .illegal, .three .staAbsX, .illegal, .illegal]

/-- Bytes 0xA0 to 0xAF of the map (R77). -/
def opcodeRowA : List Entry :=
  [.two .ldyImm, .two .ldaIndX, .two .ldxImm, .illegal,
   .two .ldyZp, .two .ldaZp, .two .ldxZp, .illegal,
   .one .tay, .two .ldaImm, .one .tax, .illegal,
   .three .ldyAbs, .three .ldaAbs, .three .ldxAbs, .illegal]

/-- Bytes 0xB0 to 0xBF of the map (R77). -/
def opcodeRowB : List Entry :=
  [.two .bcs, .two .ldaIndY, .illegal, .illegal,
   .two .ldyZpX, .two .ldaZpX, .two .ldxZpY, .illegal,
   .one .clv, .three .ldaAbsY, .one .tsx, .illegal,
   .three .ldyAbsX, .three .ldaAbsX, .three .ldxAbsY, .illegal]

/-- Bytes 0xC0 to 0xCF of the map (R77). -/
def opcodeRowC : List Entry :=
  [.two .cpyImm, .two .cmpIndX, .illegal, .illegal,
   .two .cpyZp, .two .cmpZp, .two .decZp, .illegal,
   .one .iny, .two .cmpImm, .one .dex, .illegal,
   .three .cpyAbs, .three .cmpAbs, .three .decAbs, .illegal]

/-- Bytes 0xD0 to 0xDF of the map (R77). -/
def opcodeRowD : List Entry :=
  [.two .bne, .two .cmpIndY, .illegal, .illegal,
   .illegal, .two .cmpZpX, .two .decZpX, .illegal,
   .one .cld, .three .cmpAbsY, .illegal, .illegal,
   .illegal, .three .cmpAbsX, .three .decAbsX, .illegal]

/-- Bytes 0xE0 to 0xEF of the map (R77). -/
def opcodeRowE : List Entry :=
  [.two .cpxImm, .two .sbcIndX, .illegal, .illegal,
   .two .cpxZp, .two .sbcZp, .two .incZp, .illegal,
   .one .inx, .two .sbcImm, .one .nop, .illegal,
   .three .cpxAbs, .three .sbcAbs, .three .incAbs, .illegal]

/-- Bytes 0xF0 to 0xFF of the map (R77). -/
def opcodeRowF : List Entry :=
  [.two .beq, .two .sbcIndY, .illegal, .illegal,
   .illegal, .two .sbcZpX, .two .incZpX, .illegal,
   .one .sed, .three .sbcAbsY, .illegal, .illegal,
   .illegal, .three .sbcAbsX, .three .incAbsX, .illegal]

/-- The map of section 4 (R77), by high nibble and then by low nibble. -/
def opcodeMap : List (List Entry) :=
  [opcodeRow0, opcodeRow1, opcodeRow2, opcodeRow3, opcodeRow4, opcodeRow5, opcodeRow6, opcodeRow7] ++
  [opcodeRow8, opcodeRow9, opcodeRowA, opcodeRowB, opcodeRowC, opcodeRowD, opcodeRowE, opcodeRowF]

/-- The table entry of an opcode byte (R76). -/
def decodeByte (byte : Byte) : Entry :=
  (opcodeMap.getD (byte.toNat / 16) []).getD (byte.toNat % 16) .illegal

/-- How many operand bytes follow the opcode byte (R67). -/
def Entry.operandCount : Entry → Nat
  | .illegal => 0
  | .one _ => 0
  | .two _ => 1
  | .three _ => 2

/-- What decoding a sequence of bytes answers. -/
inductive Decoded where
  | ok (i : Instr) (rest : List Byte)   -- an instruction, and the bytes after it
  | illegalOpcode (byte : Byte)         -- R78: an unmapped byte
  | truncated                           -- the sequence ends before the instruction does
  deriving DecidableEq, Repr

/-- Decode the instruction at the head of a sequence of bytes (R67 to R70, R72 to R75): a 16-bit operand has its low byte first. -/
def decode : List Byte → Decoded
  | [] => .truncated
  | byte :: rest =>
    match decodeByte byte, rest with
    | .illegal, _ => .illegalOpcode byte
    | .one i, rest => .ok i rest
    | .two mk, v :: rest => .ok (mk v) rest
    | .two _, [] => .truncated
    | .three mk, lo :: hi :: rest => .ok (mk (Machine.mkWord hi lo)) rest
    | .three _, _ => .truncated

/-- The three bytes of the longest instruction, from a number whose bit 0 is the least significant bit of the first byte and whose
bits from `nbits` on are 0: byte k is bits 8k+7..8k, as the bytes lie in memory. -/
def tableBytes (nbits w : Nat) : List Byte :=
  let n := w % 2 ^ nbits
  [BitVec.ofNat 8 n, BitVec.ofNat 8 (n / 256), BitVec.ofNat 8 (n / 65536)]

/-- The instruction the decoder reads from the bits `w`, numbered as spec/opcode_table.json numbers them. -/
def decodeTableWord (nbits w : Nat) : Option Instr :=
  match decode (tableBytes nbits w) with
  | .ok i _ => some i
  | .illegalOpcode _ => none
  | .truncated => none

/-- Format 2: the opcode byte and an 8-bit operand (R69). -/
def format2 (op v : Byte) : List Byte := [op, v]

/-- Format 3: the opcode byte, then the low and the high byte of a 16-bit operand (R70). -/
def format3 (op : Byte) (w : Word) : List Byte := [op, Machine.lo8 w, Machine.hi8 w]

/-- The bytes of an instruction, from its row of spec/opcode_table.json (R77). -/
def encode : Instr → List Byte
  | .ldaIndX z => format2 0xA1#8 z
  | .ldaZp z => format2 0xA5#8 z
  | .ldaImm v => format2 0xA9#8 v
  | .ldaAbs w => format3 0xAD#8 w
  | .ldaIndY z => format2 0xB1#8 z
  | .ldaZpX z => format2 0xB5#8 z
  | .ldaAbsY w => format3 0xB9#8 w
  | .ldaAbsX w => format3 0xBD#8 w
  | .ldxImm v => format2 0xA2#8 v
  | .ldxZp z => format2 0xA6#8 z
  | .ldxAbs w => format3 0xAE#8 w
  | .ldxZpY z => format2 0xB6#8 z
  | .ldxAbsY w => format3 0xBE#8 w
  | .ldyImm v => format2 0xA0#8 v
  | .ldyZp z => format2 0xA4#8 z
  | .ldyAbs w => format3 0xAC#8 w
  | .ldyZpX z => format2 0xB4#8 z
  | .ldyAbsX w => format3 0xBC#8 w
  | .staIndX z => format2 0x81#8 z
  | .staZp z => format2 0x85#8 z
  | .staAbs w => format3 0x8D#8 w
  | .staIndY z => format2 0x91#8 z
  | .staZpX z => format2 0x95#8 z
  | .staAbsY w => format3 0x99#8 w
  | .staAbsX w => format3 0x9D#8 w
  | .stxZp z => format2 0x86#8 z
  | .stxAbs w => format3 0x8E#8 w
  | .stxZpY z => format2 0x96#8 z
  | .styZp z => format2 0x84#8 z
  | .styAbs w => format3 0x8C#8 w
  | .styZpX z => format2 0x94#8 z
  | .tax => [0xAA#8]
  | .tay => [0xA8#8]
  | .txa => [0x8A#8]
  | .tya => [0x98#8]
  | .tsx => [0xBA#8]
  | .txs => [0x9A#8]
  | .adcIndX z => format2 0x61#8 z
  | .adcZp z => format2 0x65#8 z
  | .adcImm v => format2 0x69#8 v
  | .adcAbs w => format3 0x6D#8 w
  | .adcIndY z => format2 0x71#8 z
  | .adcZpX z => format2 0x75#8 z
  | .adcAbsY w => format3 0x79#8 w
  | .adcAbsX w => format3 0x7D#8 w
  | .sbcIndX z => format2 0xE1#8 z
  | .sbcZp z => format2 0xE5#8 z
  | .sbcImm v => format2 0xE9#8 v
  | .sbcAbs w => format3 0xED#8 w
  | .sbcIndY z => format2 0xF1#8 z
  | .sbcZpX z => format2 0xF5#8 z
  | .sbcAbsY w => format3 0xF9#8 w
  | .sbcAbsX w => format3 0xFD#8 w
  | .cmpIndX z => format2 0xC1#8 z
  | .cmpZp z => format2 0xC5#8 z
  | .cmpImm v => format2 0xC9#8 v
  | .cmpAbs w => format3 0xCD#8 w
  | .cmpIndY z => format2 0xD1#8 z
  | .cmpZpX z => format2 0xD5#8 z
  | .cmpAbsY w => format3 0xD9#8 w
  | .cmpAbsX w => format3 0xDD#8 w
  | .cpxImm v => format2 0xE0#8 v
  | .cpxZp z => format2 0xE4#8 z
  | .cpxAbs w => format3 0xEC#8 w
  | .cpyImm v => format2 0xC0#8 v
  | .cpyZp z => format2 0xC4#8 z
  | .cpyAbs w => format3 0xCC#8 w
  | .incZp z => format2 0xE6#8 z
  | .incAbs w => format3 0xEE#8 w
  | .incZpX z => format2 0xF6#8 z
  | .incAbsX w => format3 0xFE#8 w
  | .decZp z => format2 0xC6#8 z
  | .decAbs w => format3 0xCE#8 w
  | .decZpX z => format2 0xD6#8 z
  | .decAbsX w => format3 0xDE#8 w
  | .inx => [0xE8#8]
  | .iny => [0xC8#8]
  | .dex => [0xCA#8]
  | .dey => [0x88#8]
  | .andIndX z => format2 0x21#8 z
  | .andZp z => format2 0x25#8 z
  | .andImm v => format2 0x29#8 v
  | .andAbs w => format3 0x2D#8 w
  | .andIndY z => format2 0x31#8 z
  | .andZpX z => format2 0x35#8 z
  | .andAbsY w => format3 0x39#8 w
  | .andAbsX w => format3 0x3D#8 w
  | .oraIndX z => format2 0x01#8 z
  | .oraZp z => format2 0x05#8 z
  | .oraImm v => format2 0x09#8 v
  | .oraAbs w => format3 0x0D#8 w
  | .oraIndY z => format2 0x11#8 z
  | .oraZpX z => format2 0x15#8 z
  | .oraAbsY w => format3 0x19#8 w
  | .oraAbsX w => format3 0x1D#8 w
  | .eorIndX z => format2 0x41#8 z
  | .eorZp z => format2 0x45#8 z
  | .eorImm v => format2 0x49#8 v
  | .eorAbs w => format3 0x4D#8 w
  | .eorIndY z => format2 0x51#8 z
  | .eorZpX z => format2 0x55#8 z
  | .eorAbsY w => format3 0x59#8 w
  | .eorAbsX w => format3 0x5D#8 w
  | .bitZp z => format2 0x24#8 z
  | .bitAbs w => format3 0x2C#8 w
  | .aslZp z => format2 0x06#8 z
  | .aslA => [0x0A#8]
  | .aslAbs w => format3 0x0E#8 w
  | .aslZpX z => format2 0x16#8 z
  | .aslAbsX w => format3 0x1E#8 w
  | .lsrZp z => format2 0x46#8 z
  | .lsrA => [0x4A#8]
  | .lsrAbs w => format3 0x4E#8 w
  | .lsrZpX z => format2 0x56#8 z
  | .lsrAbsX w => format3 0x5E#8 w
  | .rolZp z => format2 0x26#8 z
  | .rolA => [0x2A#8]
  | .rolAbs w => format3 0x2E#8 w
  | .rolZpX z => format2 0x36#8 z
  | .rolAbsX w => format3 0x3E#8 w
  | .rorZp z => format2 0x66#8 z
  | .rorA => [0x6A#8]
  | .rorAbs w => format3 0x6E#8 w
  | .rorZpX z => format2 0x76#8 z
  | .rorAbsX w => format3 0x7E#8 w
  | .pha => [0x48#8]
  | .php => [0x08#8]
  | .pla => [0x68#8]
  | .plp => [0x28#8]
  | .clc => [0x18#8]
  | .sec => [0x38#8]
  | .cli => [0x58#8]
  | .sei => [0x78#8]
  | .cld => [0xD8#8]
  | .sed => [0xF8#8]
  | .clv => [0xB8#8]
  | .nop => [0xEA#8]
  | .bpl rel => format2 0x10#8 rel
  | .bmi rel => format2 0x30#8 rel
  | .bvc rel => format2 0x50#8 rel
  | .bvs rel => format2 0x70#8 rel
  | .bcc rel => format2 0x90#8 rel
  | .bcs rel => format2 0xB0#8 rel
  | .bne rel => format2 0xD0#8 rel
  | .beq rel => format2 0xF0#8 rel
  | .jmpAbs w => format3 0x4C#8 w
  | .jmpInd w => format3 0x6C#8 w
  | .jsr w => format3 0x20#8 w
  | .rts => [0x60#8]
  | .brk => [0x00#8]
  | .rti => [0x40#8]

/-- The length of an instruction in bytes (R67). -/
def Instr.length (i : Instr) : Nat := (encode i).length

end Sys2Proof
end

