-- ==== Sys2Proof/Machine/Fetch.lean ====
section
/-!
DEFINITION. The fetch half of the step (40_execution.md R84): the opcode byte, then the operand bytes, each read through the
trapping layer in address order (20_memory.md R47), PC moving past them with 16-bit wraparound.
-/
namespace Sys2Proof.Machine

/-- What a fetch answers. -/
inductive Fetched where
  /-- An unmapped opcode byte: no operand byte is read and PC has not moved (R86). -/
  | illegal (byte : Byte) (s : State)
  /-- An instruction, and the state in which it executes: PC holds PC_next (R85). -/
  | instr (i : Instr) (s : State)
  deriving DecidableEq, Repr

/-- Read the byte at PC and move PC past it: `MemRead(PC, 1); PC <- PC +16 1` (R91, R93). -/
def fetchByte (s : State) : ReadByte :=
  let r := memRead s s.pc
  { value := r.value, state := r.state.setPc (r.state.pc + 1#16) }

/-- Fetch one instruction (R84, R88 to R98). -/
def fetch (s : State) : Fetched :=
  let op := memRead s s.pc
  let s1 := op.state.setPc (op.state.pc + 1#16)
  match decodeByte op.value with
  | .illegal => .illegal op.value op.state
  | .one i => .instr i s1
  | .two mk =>
    let r := fetchByte s1
    .instr (mk r.value) r.state
  | .three mk =>
    let lo := fetchByte s1
    let hi := fetchByte lo.state
    .instr (mk (mkWord hi.value lo.value)) hi.state

/-- Take addresses out of the set of trapped addresses. -/
def untrap (c : Config) (as : List Word) : Config := { c with trapped := c.trapped.filter (fun a => !decide (a ∈ as)) }

/-- Store bytes at an address and the addresses after it, as the host does between runs (70_reset_and_hazards.md R204). -/
def placeBytes (s : State) (a : Word) : List Byte → State
  | [] => s
  | v :: rest => placeBytes (s.setByte a v) (a + 1#16) rest

/-- The state whose next step fetches the instruction of the bits `w` (log entry 10): its bytes are stored at PC, the fetch is not
intercepted there, and the core is running. -/
def placeTableWord (s : State) (nbits w : Nat) : State :=
  let t := (placeBytes s s.pc (tableBytes nbits w)).setStatus .running
  { t with cfg := untrap t.cfg [s.pc, s.pc + 1#16, s.pc + 2#16] }

end Sys2Proof.Machine
end

