-- ==== Sys2Proof/Machine/Step.lean ====
section
/-!
DEFINITION. One step executes one instruction (40_execution.md R84).
-/
namespace Sys2Proof.Machine

/-- `Step()` of R84, defined only for a running core. An unmapped opcode byte takes the exception IllegalOpcode: a next state whose
status is Faulted (R86). A faulted core has no step (60_exceptions.md R180), nor has one that was never reset (R35). -/
def step (s : State) : Host.Outcome State Fault Refusal :=
  match s.status with
  | .unreset => .refused .beforeReset
  | .faulted pc byte => .fault (.illegalOpcode pc byte)
  | .running =>
    match fetch s with
    | .illegal byte t => .next (takeIllegalOpcode t s.pc byte)
    | .instr i t => exec i t

/-- The state whose next step runs the instruction of the bits `w` (log entry 10). -/
def State.withFetchWord (s : State) (nbits w : Nat) : State := placeTableWord s nbits w

end Sys2Proof.Machine
end

