-- ==== Sys2Proof/Machine/HostCalls.lean ====
section
/-!
DEFINITION. What the host can do (70_reset_and_hazards.md R204): construct, reset(), resume(), writes of the state between
runs, and run_for_ticks. Cancellation is an argument of a run: how many instructions the host lets run before it stops it at
an instruction boundary (log entry 9). The other host writes of R204 are the named updates of Machine/Ops.lean.
-/
namespace Sys2Proof.Machine

/-- Construction over a buffer (R198): A, X, Y, SP, PC and F are unspecified (R39), so they are arguments, free in every claim. -/
def construct (mem : Memory) (cfg : Config) (a x y sp f : Byte) (pc : Word) : State :=
  { a := a, x := x, y := y, sp := sp, pc := pc, f := f, tickcount := 0, waitingForNmi := false, waitingForIrq := false,
    status := .unreset, mem := mem, cfg := cfg, hookCalls := 0 }

/-- `reset()` of R199, from any state (R201). -/
def hostReset (s : State) : State :=
  let t := ((((s.setF 0x24#8).setSp 0xFF#8).setA 0x00#8).setX 0x00#8).setY 0x00#8
  let r := readWord t resetVector
  (r.state.setPc r.value).setStatus .running

/-- `resume()` of 60_exceptions.md R180: a faulted core runs again. A core that was never reset stays so, because reset() is the only
way from Unreset to Running (R201, log entry 8). -/
def resume (s : State) : State :=
  match s.status with
  | .unreset => s
  | .running => s
  | .faulted _ _ => s.setStatus .running

/-- A host write of the waiting bits (10_state.md R34, R40). -/
def hostSetWaiting (s : State) (nmi irq : Bool) : State := { s with waitingForNmi := nmi, waitingForIrq := irq }

/-- A host write of tickcount (R204). -/
def hostSetTickcount (s : State) (n : Nat) : State := { s with tickcount := n }

/-- How a run ends: `Ok` or `Err(IllegalOpcode(pc, byte))` (40_execution.md R105), cancelled by the host (R106), or refused. -/
inductive RunEnd where
  | ok (s : State)
  | err (pc : Word) (byte : Byte) (s : State)
  | cancelled (s : State)
  | refused (r : Refusal)
  deriving DecidableEq, Repr

/-- The test of R105, made before each instruction: a budget of 0 or more is used up. -/
def budgetSpent (budget : Int) (start now : Nat) : Bool :=
  decide (0 ≤ budget) && decide (budget ≤ (now : Int) - (start : Int))

/-- The loop of R105. The count is how many instructions run before the host's stop request is seen (R106). -/
def runLoop (budget : Int) (start : Nat) : Nat → State → RunEnd
  | 0, s =>
    if budgetSpent budget start s.tickcount then .ok s
    else
      match s.status with
      | .unreset => .refused .beforeReset
      | .faulted pc byte => .err pc byte s
      | .running => .cancelled s
  | k + 1, s =>
    if budgetSpent budget start s.tickcount then .ok s
    else
      match s.status with
      | .unreset => .refused .beforeReset
      | .faulted pc byte => .err pc byte s
      | .running =>
        match step s with
        | .next t => runLoop budget start k t
        | .fault (.illegalOpcode pc byte) => .err pc byte s
        | .refused r => .refused r

/-- `run_for_ticks(budget)` of R105, stopped by the host after at most `cancelAfter` instructions; refused before reset (R105). -/
def runForTicks (budget : Int) (cancelAfter : Nat) (s : State) : RunEnd :=
  match s.status with
  | .unreset => .refused .beforeReset
  | .running => runLoop budget s.tickcount cancelAfter s
  | .faulted _ _ => runLoop budget s.tickcount cancelAfter s

end Sys2Proof.Machine
end

