-- ==== Sys2Proof/Safety.lean ====
section
/-!
DEFINITION. The terms in which claims are stated: what an instruction leaves unchanged, the invariant of the machine, and the form
of a claim about one row of the opcode table.
-/
namespace Sys2Proof.Machine

/-! ### Frames -/

/-- Every register but the ones named is unchanged. -/
def RegsKept (rs : List Reg) (s t : State) : Prop := ∀ r, r ∉ rs → t.reg r = s.reg r

/-- Every bit of F but those of the flags named is unchanged, bit 5 among them. -/
def FlagsKept (fs : List Flag) (s t : State) : Prop := ∀ i, (∀ fl ∈ fs, i ≠ fl.bit) → t.f.getLsbD i = s.f.getLsbD i

/-- The waiting bits, the status and the configuration are unchanged. -/
def HostStateKept (s t : State) : Prop :=
  t.waitingForNmi = s.waitingForNmi ∧ t.waitingForIrq = s.waitingForIrq ∧ t.status = s.status ∧ t.cfg = s.cfg

/-- What an instruction leaves unchanged, but for PC, tickcount and memory, of which each claim speaks apart. -/
def Frame (rs : List Reg) (fs : List Flag) (s t : State) : Prop :=
  RegsKept rs s t ∧ FlagsKept fs s t ∧ HostStateKept s t

/-- Every byte of memory reads as before. -/
def MemoryKept (s t : State) : Prop := ∀ a, t.byteAt a = s.byteAt a

/-- Every byte of memory but those at the addresses named reads as before. -/
def MemoryKeptExcept (as : List Word) (s t : State) : Prop := ∀ a, a ∉ as → t.byteAt a = s.byteAt a

/-- N and Z report the byte `v` (41_alu.md R109). -/
def ReportsNZ (v : Byte) (t : State) : Prop := t.flag .n = v.getLsbD 7 ∧ t.flag .z = decide (v = 0#8)

/-- The byte that a MemWrite of `v` to `a` stores: what the write hook answers where the address is trapped (20_memory.md R45). -/
def storedByte (s : State) (a : Word) (v : Byte) : Byte :=
  if trapsWrite s.cfg a then Config.writeHook s.hookCalls a v else v

/-! ### Invariants -/

/-- What every step keeps: memory is in its canonical form, bit 5 of F is 1 (10_state.md R30) and F.B is 0 (R29). -/
def Invariant (s : State) : Prop := s.mem.wf = true ∧ s.f.getLsbD 5 = true ∧ s.flag .b = false

/-! ### Encodings -/

/-- Read `n` bytes in address order through the trapping layer, and the state after the reads. -/
def readBytes (s : State) (a : Word) : Nat → List Byte × State
  | 0 => ([], s)
  | n + 1 =>
    let r := memRead s a
    let q := readBytes r.state (a + 1#16) n
    (r.value :: q.1, q.2)

/-- The three bytes of format 3 (30_encoding.md R70): the opcode, bits 7:0 and bits 15:8 of the operand. -/
def bytes3 (op : Byte) (w : Word) : List Byte := [op, w.extractLsb' 0 8, w.extractLsb' 8 8]

/-- The 105 unmapped bytes of 30_encoding.md R78, copied from it. -/
def illegalBytes : List Byte :=
  [0x02#8, 0x03#8, 0x04#8, 0x07#8, 0x0B#8, 0x0C#8, 0x0F#8, 0x12#8, 0x13#8, 0x14#8, 0x17#8, 0x1A#8, 0x1B#8, 0x1C#8, 0x1F#8] ++
  [0x22#8, 0x23#8, 0x27#8, 0x2B#8, 0x2F#8, 0x32#8, 0x33#8, 0x34#8, 0x37#8, 0x3A#8, 0x3B#8, 0x3C#8, 0x3F#8] ++
  [0x42#8, 0x43#8, 0x44#8, 0x47#8, 0x4B#8, 0x4F#8, 0x52#8, 0x53#8, 0x54#8, 0x57#8, 0x5A#8, 0x5B#8, 0x5C#8, 0x5F#8] ++
  [0x62#8, 0x63#8, 0x64#8, 0x67#8, 0x6B#8, 0x6F#8, 0x72#8, 0x73#8, 0x74#8, 0x77#8, 0x7A#8, 0x7B#8, 0x7C#8, 0x7F#8] ++
  [0x80#8, 0x82#8, 0x83#8, 0x87#8, 0x89#8, 0x8B#8, 0x8F#8, 0x92#8, 0x93#8, 0x97#8, 0x9B#8, 0x9C#8, 0x9E#8, 0x9F#8] ++
  [0xA3#8, 0xA7#8, 0xAB#8, 0xAF#8, 0xB2#8, 0xB3#8, 0xB7#8, 0xBB#8, 0xBF#8] ++
  [0xC2#8, 0xC3#8, 0xC7#8, 0xCB#8, 0xCF#8, 0xD2#8, 0xD3#8, 0xD4#8, 0xD7#8, 0xDA#8, 0xDB#8, 0xDC#8, 0xDF#8] ++
  [0xE2#8, 0xE3#8, 0xE7#8, 0xEB#8, 0xEF#8, 0xF2#8, 0xF3#8, 0xF4#8, 0xF7#8, 0xFA#8, 0xFB#8, 0xFC#8, 0xFF#8]

/-- Every access an instruction makes is one call of the hook where its address is trapped (20_memory.md R54): the count of calls
after a MemWrite to `a`, from the count before it. The count is the model's own field (log entry 5). -/
def callsAfterWrite (s : State) (a : Word) : Nat := if trapsWrite s.cfg a then s.hookCalls + 1 else s.hookCalls

/-! ### Claims about one row of the opcode table

Each says that the bytes of the row decode to the instruction, and what the instruction does in every state, PC holding
PC_next (40_execution.md R85). -/

/-- The cost of an opcode that reads its operand: +1 on a page crossing (R101). -/
def readCost (base : Nat) (crossed : Bool) : Nat := if crossed then base + 1 else base

/-- The cost of a store or a read-modify-write form: +1 on a page crossing only when P4 is AllIndexed (R101). -/
def storeCost (c : Config) (base : Nat) (crossed : Bool) : Nat :=
  if crossed ∧ c.penaltyScope = .allIndexed then base + 1 else base

/-- A load into a register. -/
def LoadForm (r : Reg) (bytes : List Byte) (i : Instr) (src : Source) (base : Nat) : Prop :=
  decode bytes = .ok i [] ∧ ∀ s, ∃ t, exec i s = .next t ∧
    t.reg r = (loadSource s src).value ∧ ReportsNZ (loadSource s src).value t ∧
    Frame [r] [.n, .z] s t ∧ MemoryKept s t ∧ t.pc = s.pc ∧
    t.tickcount = s.tickcount + readCost base (loadSource s src).crossed

/-- A store of a register: one byte at the effective address, nothing else. -/
def StoreForm (r : Reg) (bytes : List Byte) (i : Instr) (m : EaMode) (base : Nat) : Prop :=
  decode bytes = .ok i [] ∧ ∀ s, ∃ t, exec i s = .next t ∧
    t.byteAt (resolveEa s m).ea = storedByte (resolveEa s m).state (resolveEa s m).ea (s.reg r) ∧
    MemoryKeptExcept [(resolveEa s m).ea] s t ∧ Frame [] [] s t ∧ t.pc = s.pc ∧
    t.tickcount = s.tickcount + storeCost s.cfg base (resolveEa s m).crossed

/-- An instruction that writes one register from values of registers, reporting it in N and Z. -/
def RegisterForm (r : Reg) (op : Byte) (i : Instr) (result : State → Byte) : Prop :=
  decode [op] = .ok i [] ∧ ∀ s, ∃ t, exec i s = .next t ∧ t.reg r = result s ∧ ReportsNZ (result s) t ∧
    Frame [r] [.n, .z] s t ∧ MemoryKept s t ∧ t.pc = s.pc ∧ t.tickcount = s.tickcount + 2

/-- ADC or SBC: in binary mode (F.D = 0) the binary helper's result, in decimal mode the decimal one's, with V the free value of P5. -/
def SumForm (op : DecimalOp) (binary : Byte → Byte → Bool → BinaryResult) (decimal : Byte → Byte → Bool → CarryResult)
    (bytes : List Byte) (i : Instr) (src : Source) (base : Nat) : Prop :=
  decode bytes = .ok i [] ∧ ∀ s, ∃ t, exec i s = .next t ∧
    (s.flag .d = false →
      t.a = (binary s.a (loadSource s src).value (s.flag .c)).value ∧
      t.flag .c = (binary s.a (loadSource s src).value (s.flag .c)).carry ∧
      t.flag .v = (binary s.a (loadSource s src).value (s.flag .c)).overflow) ∧
    (s.flag .d = true →
      t.a = (decimal s.a (loadSource s src).value (s.flag .c)).value ∧
      t.flag .c = (decimal s.a (loadSource s src).value (s.flag .c)).carry ∧
      t.flag .v = Config.decimalV op s.a (loadSource s src).value (s.flag .c) (s.flag .v)) ∧
    ReportsNZ t.a t ∧ Frame [.a] [.n, .v, .z, .c] s t ∧ MemoryKept s t ∧ t.pc = s.pc ∧
    t.tickcount = s.tickcount + readCost base (loadSource s src).crossed

/-- A compare of a register: C, Z and N as the source's law gives them (43_arithmetic_compare.md R135). -/
def CompareForm (r : Reg) (bytes : List Byte) (i : Instr) (src : Source) (base : Nat) : Prop :=
  decode bytes = .ok i [] ∧ ∀ s, ∃ t, exec i s = .next t ∧
    t.flag .c = decide ((loadSource s src).value.toNat ≤ (s.reg r).toNat) ∧
    t.flag .z = decide (s.reg r = (loadSource s src).value) ∧
    t.flag .n = (s.reg r - (loadSource s src).value).getLsbD 7 ∧
    Frame [] [.n, .z, .c] s t ∧ MemoryKept s t ∧ t.pc = s.pc ∧
    t.tickcount = s.tickcount + readCost base (loadSource s src).crossed

/-- INC or DEC of a byte of memory, to `op` of what was read. -/
def MemStepForm (op : Byte → Byte) (bytes : List Byte) (i : Instr) (m : EaMode) (base : Nat) : Prop :=
  decode bytes = .ok i [] ∧ ∀ s, ∃ t, exec i s = .next t ∧
    t.byteAt (resolveEa s m).ea =
      storedByte (memRead (resolveEa s m).state (resolveEa s m).ea).state (resolveEa s m).ea
        (op (memRead (resolveEa s m).state (resolveEa s m).ea).value) ∧
    ReportsNZ (op (memRead (resolveEa s m).state (resolveEa s m).ea).value) t ∧
    MemoryKeptExcept [(resolveEa s m).ea] s t ∧ Frame [] [.n, .z] s t ∧ t.pc = s.pc ∧
    t.tickcount = s.tickcount + storeCost s.cfg base (resolveEa s m).crossed

/-- AND, ORA or EOR: A becomes `op` of A and the operand. -/
def LogicForm (op : Byte → Byte → Byte) (bytes : List Byte) (i : Instr) (src : Source) (base : Nat) : Prop :=
  decode bytes = .ok i [] ∧ ∀ s, ∃ t, exec i s = .next t ∧
    t.a = op s.a (loadSource s src).value ∧ ReportsNZ (op s.a (loadSource s src).value) t ∧
    Frame [.a] [.n, .z] s t ∧ MemoryKept s t ∧ t.pc = s.pc ∧
    t.tickcount = s.tickcount + readCost base (loadSource s src).crossed

/-- A shift or rotate of A: `value` and `carry` of the old byte and the old carry. -/
def AccShiftForm (value : Byte → Bool → Byte) (carry : Byte → Bool) (op : Byte) (i : Instr) : Prop :=
  decode [op] = .ok i [] ∧ ∀ s, ∃ t, exec i s = .next t ∧
    t.a = value s.a (s.flag .c) ∧ t.flag .c = carry s.a ∧ ReportsNZ (value s.a (s.flag .c)) t ∧
    Frame [.a] [.n, .z, .c] s t ∧ MemoryKept s t ∧ t.pc = s.pc ∧ t.tickcount = s.tickcount + 2

/-- A shift or rotate of a byte of memory. -/
def MemShiftForm (value : Byte → Bool → Byte) (carry : Byte → Bool) (bytes : List Byte) (i : Instr) (m : EaMode)
    (base : Nat) : Prop :=
  decode bytes = .ok i [] ∧ ∀ s, ∃ t, exec i s = .next t ∧
    t.byteAt (resolveEa s m).ea =
      storedByte (memRead (resolveEa s m).state (resolveEa s m).ea).state (resolveEa s m).ea
        (value (memRead (resolveEa s m).state (resolveEa s m).ea).value (s.flag .c)) ∧
    t.flag .c = carry (memRead (resolveEa s m).state (resolveEa s m).ea).value ∧
    ReportsNZ (value (memRead (resolveEa s m).state (resolveEa s m).ea).value (s.flag .c)) t ∧
    MemoryKeptExcept [(resolveEa s m).ea] s t ∧ Frame [] [.n, .z, .c] s t ∧ t.pc = s.pc ∧
    t.tickcount = s.tickcount + storeCost s.cfg base (resolveEa s m).crossed

/-- A push of one byte. -/
def PushForm (op : Byte) (i : Instr) (pushed : State → Byte) : Prop :=
  decode [op] = .ok i [] ∧ ∀ s, ∃ t, exec i s = .next t ∧
    t.byteAt (stackAddr s.sp) = storedByte s (stackAddr s.sp) (pushed s) ∧
    t.sp = s.sp - 1#8 ∧ MemoryKeptExcept [stackAddr s.sp] s t ∧ Frame [.sp] [] s t ∧ t.pc = s.pc ∧
    t.tickcount = s.tickcount + 3

/-- An instruction that writes one flag. -/
def FlagForm (fl : Flag) (b : Bool) (op : Byte) (i : Instr) : Prop :=
  decode [op] = .ok i [] ∧ ∀ s, ∃ t, exec i s = .next t ∧
    t.flag fl = b ∧ Frame [] [fl] s t ∧ MemoryKept s t ∧ t.pc = s.pc ∧ t.tickcount = s.tickcount + 2

/-- A branch that is taken when a flag has a value: the target is PC_next plus the signed offset; +1 when taken, +2 when taken to
another page than that of PC_next (46_control.md R164, 40_execution.md R102). -/
def BranchForm (fl : Flag) (b : Bool) (op : Byte) (mk : Byte → Instr) : Prop :=
  ∀ rel : Byte, decode [op, rel] = .ok (mk rel) [] ∧ ∀ s, ∃ t, exec (mk rel) s = .next t ∧
    (s.flag fl = b → t.pc = s.pc + BitVec.ofInt 16 rel.toInt ∧
      t.tickcount = s.tickcount + (if t.pc.toNat / 256 = s.pc.toNat / 256 then 3 else 4)) ∧
    (s.flag fl ≠ b → t.pc = s.pc ∧ t.tickcount = s.tickcount + 2) ∧
    Frame [] [] s t ∧ MemoryKept s t

end Sys2Proof.Machine
end

