-- ==== Sys2Proof/Certificates/Slice0/Obligations.lean ====
section
/-!
DEFINITION. The statements for the provers. Each says in its docstring which rules of the spec it formalises.
-/
open Sys2Proof Sys2Proof.Machine

/-- O1. For every instruction and whatever bytes follow it, decoding its encoded bytes gives the instruction and leaves the bytes that follow. (30_encoding.md section 1, 30_encoding.md section 3, 30_encoding.md section 4) -/
def Obligations.DecodeOfEncode : Prop :=
  ∀ (i : Instr) (rest : List Byte), decode (encode i ++ rest) = .ok i rest

/-- O2. If a sequence of bytes decodes to an instruction with some bytes left over, then the sequence is the encoding of that instruction followed by those bytes, so no two sequences decode to one instruction. (30_encoding.md section 1, 30_encoding.md section 3) -/
def Obligations.DecodedBytesAreEncoded : Prop :=
  ∀ (bs : List Byte) (i : Instr) (rest : List Byte), decode bs = .ok i rest → bs = encode i ++ rest

/-- O3. One instruction of each family, its bytes copied from the examples of the spec: LDA #$80, STA $0200, ADC #$01, DEC $1234, ROR $20, BIT $10, PHP, BNE, JMP ($30FF), JSR $0610, BRK and RTI. (42_load_store_transfer.md, 43_arithmetic_compare.md, 44_logic_shift.md, 45_stack_flags.md, 46_control.md) -/
def Obligations.SampleWordsDecode : Prop :=
  decode [0xA9#8, 0x80#8] = .ok (.ldaImm 0x80#8) [] ∧
    decode [0x8D#8, 0x00#8, 0x02#8] = .ok (.staAbs 0x0200#16) [] ∧
    decode [0x69#8, 0x01#8] = .ok (.adcImm 0x01#8) [] ∧
    decode [0xCE#8, 0x34#8, 0x12#8] = .ok (.decAbs 0x1234#16) [] ∧
    decode [0x66#8, 0x20#8] = .ok (.rorZp 0x20#8) [] ∧
    decode [0x24#8, 0x10#8] = .ok (.bitZp 0x10#8) [] ∧
    decode [0x08#8] = .ok .php [] ∧
    decode [0xD0#8, 0xF8#8] = .ok (.bne 0xF8#8) [] ∧
    decode [0x6C#8, 0xFF#8, 0x30#8] = .ok (.jmpInd 0x30FF#16) [] ∧
    decode [0x20#8, 0x10#8, 0x06#8] = .ok (.jsr 0x0610#16) [] ∧
    decode [0x00#8] = .ok .brk [] ∧
    decode [0x40#8] = .ok .rti []

/-- O4. Two sequences of bytes that begin with the same byte and both decode give instructions of the same length, of 1, 2 or 3 bytes. (30_encoding.md section 1, 30_encoding.md section 5) -/
def Obligations.OpcodeByteFixesLength : Prop :=
  ∀ (b : Byte) (bs cs : List Byte) (i j : Instr) (r q : List Byte),
    decode (b :: bs) = .ok i r → decode (b :: cs) = .ok j q →
    i.length = j.length ∧ 1 ≤ i.length ∧ i.length ≤ 3

/-- O5. The 105 listed bytes, and no others, decode to no instruction; a running core whose opcode byte is one of them steps to the state in which the status is Faulted(pc, byte) and every register, flag, tickcount and memory are as before (the hook of a trapped opcode address has been called once). That this is a next state, and how calls are counted, are the model's choices (log entries 6 and 5). (30_encoding.md section 5, 40_execution.md section 1, 60_exceptions.md section 1) -/
def Obligations.IllegalByteFaults : Prop :=
  (∀ (b : Byte) (rest : List Byte), b ∈ illegalBytes ↔ decode (b :: rest) = .illegalOpcode b) ∧
    illegalBytes.length = 105 ∧
    ∀ s : State, s.status = .running → (memRead s s.pc).value ∈ illegalBytes →
      step s = .next { s with status := .faulted s.pc (memRead s s.pc).value,
                              hookCalls := if trapsRead s.cfg s.pc then s.hookCalls + 1 else s.hookCalls }

/-- O6. When the bytes a running core reads at PC, in address order, decode to an instruction, the step is exec of that instruction in the state after those reads with PC moved past the instruction, modulo 65536. That every operand byte, the immediate byte too, is read in address order before exec is the model's reading (log entry 7). (40_execution.md section 1, 40_execution.md section 2) -/
def Obligations.StepRunsDecodedInstruction : Prop :=
  ∀ (s : State) (i : Instr), s.status = .running →
    decode (readBytes s s.pc i.length).1 = .ok i [] →
    step s = exec i ((readBytes s s.pc i.length).2.setPc (s.pc + BitVec.ofNat 16 i.length))

/-- O7. If the decoder reads an instruction from a table word, then after withFetchWord places the word in any state the next step is exec of that instruction with PC moved past it. The placement is the model's choice (log entry 10): it stores three bytes at PC, makes the core Running, and takes these three addresses out of the trapped set. (40_execution.md section 1, 30_encoding.md section 1) -/
def Obligations.PlacedWordRuns : Prop :=
  ∀ (s : State) (nbits w : Nat) (i : Instr), decodeTableWord nbits w = some i →
    step (s.withFetchWord nbits w) = exec i ((s.withFetchWord nbits w).setPc (s.pc + BitVec.ofNat 16 i.length))

/-- O8. A core that was never reset refuses the step; a faulted core answers the fault it is in (log entry 6). (10_state.md section 5, 60_exceptions.md section 1) -/
def Obligations.StepNeedsRunningStatus : Prop :=
  ∀ s : State,
    (s.status = .unreset → step s = .refused .beforeReset) ∧
    (∀ pc byte, s.status = .faulted pc byte → step s = .fault (.illegalOpcode pc byte))

/-- O9. No instruction, operand or state makes a running core stop: there are no arithmetic, alignment, access, stack or privilege faults, and an illegal opcode is a next state (the model's reading, log entry 6). (60_exceptions.md section 1, 40_execution.md section 1) -/
def Obligations.RunningStepAnswersNext : Prop :=
  ∀ s : State, s.status = .running → ∃ t, step s = .next t

/-- O10. From every state in which memory is in its canonical form, bit 5 of F is 1 and F.B is 0, a step that answers a next state gives one in which all three hold. The clause on memory is the model's own (log entry 1); the clauses on F are the spec's. (10_state.md section 3) -/
def Obligations.StepKeepsInvariant : Prop :=
  ∀ s t : State, Invariant s → step s = .next t → Invariant t

/-- O11. State.reset meets the invariant, and so does reset() of any state whose memory is canonical. The canonical form of memory is the model's choice (log entry 1), and so is State.reset over a buffer of zeros (log entry 2). (10_state.md section 3, 70_reset_and_hazards.md section 1) -/
def Obligations.ResetMeetsInvariant : Prop :=
  Invariant State.reset ∧ ∀ s : State, s.mem.wf = true → Invariant (hostReset s)

/-- O12. Every step of a running core that leaves it running raises tickcount by at least 2 and at most 8 (at most 7 unless P4 is AllIndexed); one that leaves it faulted does not change tickcount; tickcount never falls. That a faulting step is a next state is the model's reading (log entry 6). (40_execution.md section 3) -/
def Obligations.StepCostBounds : Prop :=
  ∀ s t : State, s.status = .running → step s = .next t →
    s.tickcount ≤ t.tickcount ∧
    (t.status = .running → s.tickcount + 2 ≤ t.tickcount ∧ t.tickcount ≤ s.tickcount + 8 ∧
      (s.cfg.penaltyScope = .readsOnly → t.tickcount ≤ s.tickcount + 7)) ∧
    (t.status ≠ .running → t.tickcount = s.tickcount)

/-- O13. With the waiting bits set to any values, a step gives what it gives without, with those values; it leaves them as they were; so does reset(); and they are false at construction. The trap hooks answer alike in both runs (log entry 5). (10_state.md section 5) -/
def Obligations.WaitingBitsAreInert : Prop :=
  (∀ (s t : State) (nmi irq : Bool), step s = .next t →
      step (hostSetWaiting s nmi irq) = .next (hostSetWaiting t nmi irq) ∧
      t.waitingForNmi = s.waitingForNmi ∧ t.waitingForIrq = s.waitingForIrq) ∧
    (∀ (s : State) (nmi irq : Bool), hostReset (hostSetWaiting s nmi irq) = hostSetWaiting (hostReset s) nmi irq ∧
      (hostReset s).waitingForNmi = s.waitingForNmi ∧ (hostReset s).waitingForIrq = s.waitingForIrq) ∧
    (∀ mem cfg a x y sp f pc, (construct mem cfg a x y sp f pc).waitingForNmi = false ∧
      (construct mem cfg a x y sp f pc).waitingForIrq = false)

/-- O14. P1 to P4 and the trapped set, which the model carries in State (log entry 3), are fixed for the processor's lifetime. (10_state.md section 1, 00_scope.md section 3) -/
def Obligations.StepKeepsConfiguration : Prop :=
  ∀ s t : State, step s = .next t → t.cfg = s.cfg

/-- O15. For every instruction but ADC, SBC and the two that push F (PHP, BRK), executing it with F.D set to another value gives the same next state up to F.D itself, the trap hooks answering alike (log entry 5). (10_state.md section 3, 41_alu.md section 3) -/
def Obligations.DecimalFlagOnlyAffectsAddAndSubtract : Prop :=
  ∀ (i : Instr) (s : State) (b : Bool),
    (∀ op rest, encode i = op :: rest → op ∉
      [0x61#8, 0x65#8, 0x69#8, 0x6D#8, 0x71#8, 0x75#8, 0x79#8, 0x7D#8, 0xE1#8, 0xE5#8, 0xE9#8, 0xED#8, 0xF1#8, 0xF5#8, 0xF9#8, 0xFD#8, 0x08#8, 0x00#8]) →
    ∃ t u, exec i s = .next t ∧ exec i (s.putFlag .d b) = .next u ∧ u.putFlag .d false = t.putFlag .d false

/-- O16. For every instruction but the two that push F (PHP, BRK), executing it with F.I set to another value gives the same next state up to F.I itself, the trap hooks answering alike (log entry 5). (10_state.md section 3, 60_exceptions.md section 3) -/
def Obligations.InterruptFlagIsInert : Prop :=
  ∀ (i : Instr) (s : State) (b : Bool), i ≠ .php → i ≠ .brk →
    ∃ t u, exec i s = .next t ∧ exec i (s.putFlag .i b) = .next u ∧ u.putFlag .i false = t.putFlag .i false

/-- O17. With no trapped address: a read gives M[a] and changes nothing; a write makes M[a] the byte and changes no other byte; a word access is two byte accesses, at a and at a + 1 modulo 65536. (R44) -/
def Obligations.MemoryAccessWithoutTraps : Prop :=
  ∀ (s : State) (a w : Word) (v : Byte), s.cfg.trapped = [] →
    memRead s a = { value := s.byteAt a, state := s } ∧
    (memWrite s a v).byteAt a = v ∧
    (∀ b, b ≠ a → (memWrite s a v).byteAt b = s.byteAt b) ∧
    readWord s a = { value := mkWord (s.byteAt (a + 1#16)) (s.byteAt a), state := s } ∧
    (writeWord s a w).byteAt a = w.extractLsb' 0 8 ∧
    (writeWord s a w).byteAt (a + 1#16) = w.extractLsb' 8 8 ∧
    (∀ b, b ≠ a → b ≠ a + 1#16 → (writeWord s a w).byteAt b = s.byteAt b)

/-- O18. A read of a trapped address gives the read hook's Some value, else the stored byte; a write stores what the write hook answers. Loads, stores and read-modify-write instructions make one read and one write of their operand at most, each one call where trapped. The answers are free values and the count of calls is the model's own (log entry 5). (20_memory.md section 2, 20_memory.md section 4) -/
def Obligations.TrappedAccessesCallHooks : Prop :=
  ∀ (s : State) (a : Word) (v : Byte) (r : Reg) (m : EaMode) (base : Nat),
    (memRead s a).value =
      (if a ∈ s.cfg.trapped ∧ s.cfg.hasReadHook = true then
        (match Config.readHook s.hookCalls a with
         | some b => b
         | none => s.byteAt a)
      else s.byteAt a) ∧
    (memRead s a).state.hookCalls =
      (if a ∈ s.cfg.trapped ∧ s.cfg.hasReadHook = true then s.hookCalls + 1 else s.hookCalls) ∧
    MemoryKept s (memRead s a).state ∧
    (memWrite s a v).byteAt a =
      (if a ∈ s.cfg.trapped ∧ s.cfg.hasWriteHook = true then Config.writeHook s.hookCalls a v else v) ∧
    (memWrite s a v).hookCalls = callsAfterWrite s a ∧
    MemoryKeptExcept [a] s (memWrite s a v) ∧
    (loadReg r (.mem m) base s).hookCalls = (memRead (resolveEa s m).state (resolveEa s m).ea).state.hookCalls ∧
    (storeReg r m base s).hookCalls = callsAfterWrite (resolveEa s m).state (resolveEa s m).ea ∧
    (∀ op : Byte → Byte, (stepAt op m base s).hookCalls =
      callsAfterWrite (memRead (resolveEa s m).state (resolveEa s m).ea).state (resolveEa s m).ea) ∧
    (∀ op : Byte → Bool → CarryResult, (shiftAt op (.mem m) base s).hookCalls =
      callsAfterWrite (memRead (resolveEa s m).state (resolveEa s m).ea).state (resolveEa s m).ea)

/-- O19. With no trapped address, the word read at a is byte a plus 256 times the byte at a + 1 modulo 65536; a zero-page pointer at z takes its high byte at z + 1 modulo 256. (20_memory.md section 3) -/
def Obligations.WordsAreLittleEndianAndWrap : Prop :=
  ∀ (s : State) (a : Word) (z : Byte), s.cfg.trapped = [] →
    (readWord s a).value.toNat =
      (Memory.read s.mem a.toNat).toNat + 256 * (Memory.read s.mem ((a.toNat + 1) % 65536)).toNat ∧
    (readWord s a).state = s ∧
    (readWordZP s z).value.toNat =
      (Memory.read s.mem z.toNat).toNat + 256 * (Memory.read s.mem ((z.toNat + 1) % 256)).toNat ∧
    (readWordZP s z).state = s

/-- O20. The four stack primitives, with the address written as a number: SP is an offset in page 1, and 16-bit pushes and pops are two byte operations in the stated order. (R57, R58, R59, R60) -/
def Obligations.StackPushAndPop : Prop :=
  ∀ (s : State) (v : Byte) (w : Word),
    (∃ a : Word, a.toNat = 256 + s.sp.toNat ∧ push8 s v = { memWrite s a v with sp := s.sp - 1#8 }) ∧
    (∃ a : Word, a.toNat = 256 + (s.sp.toNat + 1) % 256 ∧ pop8 s = memRead { s with sp := s.sp + 1#8 } a) ∧
    push16 s w = push8 (push8 s (w.extractLsb' 8 8)) (w.extractLsb' 0 8) ∧
    (pop16 s).value.toNat = (pop8 s).value.toNat + 256 * (pop8 (pop8 s).state).value.toNat ∧
    (pop16 s).state = (pop8 (pop8 s).state).state

/-- O21. However many bytes are pushed, every byte outside 0x0100 to 0x01FF reads as before, and SP has moved down by their number modulo 256. (20_memory.md section 6) -/
def Obligations.PushesStayInPageOne : Prop :=
  ∀ (s : State) (vs : List Byte),
    (∀ a : Word, (a.toNat < 0x100 ∨ 0x1FF < a.toNat) → (vs.foldl push8 s).byteAt a = s.byteAt a) ∧
    (vs.foldl push8 s).sp = s.sp - BitVec.ofNat 8 vs.length ∧
    (vs.length = 256 → (vs.foldl push8 s).sp = s.sp)

/-- O22. From any state, reset() gives those values and the status Running, and leaves tickcount, the waiting bits and memory as they were; PC is the little-endian word at 0xFFFC, read through the trapping layer. (R199) -/
def Obligations.ResetOperation : Prop :=
  ∀ s : State,
    (hostReset s).f = 0x24#8 ∧ (hostReset s).sp = 0xFF#8 ∧
    (hostReset s).a = 0x00#8 ∧ (hostReset s).x = 0x00#8 ∧ (hostReset s).y = 0x00#8 ∧
    (hostReset s).pc = (readWord s 0xFFFC#16).value ∧ (hostReset s).status = .running ∧
    (hostReset s).tickcount = s.tickcount ∧ (hostReset s).mem = s.mem ∧
    (hostReset s).waitingForNmi = s.waitingForNmi ∧ (hostReset s).waitingForIrq = s.waitingForIrq ∧
    (hostReset s).cfg = s.cfg ∧
    (s.cfg.trapped = [] → (hostReset s).pc = mkWord (s.byteAt 0xFFFD#16) (s.byteAt 0xFFFC#16))

/-- O23. Whatever the unspecified registers of the constructed core held, and up to the model's own count of hook calls. That the buffer holds zeros is the model's choice (log entries 1 and 2). (70_reset_and_hazards.md section 1) -/
def Obligations.ResetStateIsResetOfNewCore : Prop :=
  ∀ a x y sp f pc n,
    (hostReset (construct [] Config.standard a x y sp f pc)).setHookCalls n = State.reset.setHookCalls n

/-- O24. A faulted core becomes Running with every other field as it was. That resume() leaves a core never reset as it is, is the model's reading (log entry 8). (60_exceptions.md section 1, 70_reset_and_hazards.md section 1) -/
def Obligations.ResumeRestartsFaultedCore : Prop :=
  ∀ s : State, (∀ pc byte, s.status = .faulted pc byte → resume s = { s with status := .running }) ∧
    (s.status = .running → resume s = s) ∧ (s.status = .unreset → resume s = s)

/-- O25. Nothing is executed: the state returned is the state given, whatever count of instructions the host would stop the run after (the count is the model's, log entry 9). (60_exceptions.md section 1, 40_execution.md section 4) -/
def Obligations.FaultedRunReturnsError : Prop :=
  ∀ (s : State) (pc : Word) (byte : Byte) (budget : Int) (k : Nat), s.status = .faulted pc byte →
    runForTicks budget k s = if budget = 0 then .ok s else .err pc byte s

/-- O26. When such a run returns Ok, tickcount has advanced by at least the budget and by at most the budget plus 7, and by nothing at all for a budget of 0, whatever count of instructions the host would stop it after (the count is the model's, log entry 9). (40_execution.md section 3, 40_execution.md section 4) -/
def Obligations.RunStopsAtBudget : Prop :=
  ∀ (s t : State) (budget : Int) (k : Nat), 0 ≤ budget → runForTicks budget k s = .ok t →
    budget ≤ (t.tickcount : Int) - s.tickcount ∧ (t.tickcount : Int) - s.tickcount ≤ budget + 7 ∧
    (budget = 0 → t = s)

/-- O27. A core that was reset and is given a budget b of 0 or more, and at least b instructions before the host would stop it, returns Ok or Err: it is not cut off. That the host's stop is a count of instructions is the model's choice (log entry 9). (40_execution.md section 4) -/
def Obligations.BudgetedRunEnds : Prop :=
  ∀ (s : State) (budget k : Nat), s.status ≠ .unreset → budget ≤ k →
    (∃ t, runForTicks budget k s = .ok t) ∨ (∃ pc byte t, runForTicks budget k s = .err pc byte t)

/-- O28. If the step of a running core leaves it running, the run returns Ok with exactly that state; if it faults, the run returns its error; both where the host would stop the run after one instruction or more. A core never reset is refused. The stop count (log entry 9) and the faulting step as a next state (log entry 6) are the model's choices. (60_exceptions.md section 5, 40_execution.md section 4) -/
def Obligations.BudgetOfOneSingleSteps : Prop :=
  ∀ (s t : State) (k : Nat),
    (s.status = .running → step s = .next t → t.status = .running → runForTicks 1 (k + 1) s = .ok t) ∧
    (∀ pc byte, s.status = .running → step s = .next t → t.status = .faulted pc byte →
      runForTicks 1 (k + 1) s = .err pc byte t) ∧
    (s.status = .unreset → runForTicks 1 k s = .refused .beforeReset)

/-- O29. The result is the exact sum modulo 256, the carry says the sum exceeds 255, and the overflow says that both operands have one sign and the result another, which is that the signed sum leaves -128..127. (R110) -/
def Obligations.BinaryAdd : Prop :=
  ∀ (a b : Byte) (c : Bool),
    (addHex a b c).value.toNat = (a.toNat + b.toNat + c.toNat) % 256 ∧
    (addHex a b c).carry = decide (255 < a.toNat + b.toNat + c.toNat) ∧
    (addHex a b c).overflow = decide (a.msb = b.msb ∧ (addHex a b c).value.msb ≠ a.msb) ∧
    ((addHex a b c).overflow = true ↔ a.toInt + b.toInt + c.toNat < -128 ∨ 127 < a.toInt + b.toInt + c.toNat)

/-- O30. The result modulo 256, the carry as no borrow, the overflow by the signs; and all three are those of add_hex(a, ~b, c). (R111) -/
def Obligations.BinarySubtract : Prop :=
  ∀ (a b : Byte) (c : Bool),
    ((subtractHex a b c).value.toNat : Int) = ((a.toNat : Int) - b.toNat - (1 - c.toNat)) % 256 ∧
    (subtractHex a b c).carry = decide (0 ≤ (a.toNat : Int) - b.toNat - (1 - c.toNat)) ∧
    (subtractHex a b c).overflow = decide (a.msb ≠ b.msb ∧ (subtractHex a b c).value.msb ≠ a.msb) ∧
    subtractHex a b c = addHex a (~~~b) c

/-- O31. The result is valid BCD, and its value plus 100 times the carry is the sum of the clamped operands and the carry in. (R112) -/
def Obligations.DecimalAdd : Prop :=
  ∀ (a b : Byte) (c : Bool),
    (addDecimal a b c).value.toNat / 16 ≤ 9 ∧ (addDecimal a b c).value.toNat % 16 ≤ 9 ∧
    10 * ((addDecimal a b c).value.toNat / 16) + (addDecimal a b c).value.toNat % 16 + 100 * (addDecimal a b c).carry.toNat =
      (10 * min (a.toNat / 16) 9 + min (a.toNat % 16) 9) + (10 * min (b.toNat / 16) 9 + min (b.toNat % 16) 9) + c.toNat

/-- O32. The result is valid BCD, and it is the difference of the clamped operands less the borrow in, plus 100 when a borrow leaves, which is when the carry is 0. (R113) -/
def Obligations.DecimalSubtract : Prop :=
  ∀ (a b : Byte) (c : Bool),
    (subtractDecimal a b c).value.toNat / 16 ≤ 9 ∧ (subtractDecimal a b c).value.toNat % 16 ≤ 9 ∧
    10 * ((subtractDecimal a b c).value.toNat / 16) + (subtractDecimal a b c).value.toNat % 16 +
        (10 * min (b.toNat / 16) 9 + min (b.toNat % 16) 9) + 1 + 100 * (subtractDecimal a b c).carry.toNat =
      (10 * min (a.toNat / 16) 9 + min (a.toNat % 16) 9) + c.toNat + 100

/-- O33. An immediate operand is the byte itself; a zero-page address is the byte, in 0 to 255; an absolute address is the 16-bit operand; none crosses a page, and loading from an address is one MemRead of it. (30_encoding.md section 2, 40_execution.md section 1, 40_execution.md section 2) -/
def Obligations.ImmediateAndDirectOperands : Prop :=
  ∀ (s : State) (v z : Byte) (w : Word) (m : EaMode),
    loadSource s (.imm v) = { value := v, crossed := false, state := s } ∧
    (resolveEa s (.zp z)).ea.toNat = z.toNat ∧ (resolveEa s (.zp z)).crossed = false ∧ (resolveEa s (.zp z)).state = s ∧
    resolveEa s (.abs w) = { ea := w, crossed := false, state := s } ∧
    (loadSource s (.mem m)).value = (memRead (resolveEa s m).state (resolveEa s m).ea).value ∧
    (loadSource s (.mem m)).crossed = (resolveEa s m).crossed

/-- O34. Under Wrap8 the address is the sum modulo 256, in the zero page; under Signed16 it is the zero-page address plus the index read as two's complement, modulo 65536; no page penalty in either case. (40_execution.md section 2) -/
def Obligations.ZeroPageIndexedAddress : Prop :=
  ∀ (s : State) (z : Byte),
    (s.cfg.zpIndexMode = .wrap8 →
      (resolveEa s (.zpX z)).ea.toNat = (z.toNat + s.x.toNat) % 256 ∧
      (resolveEa s (.zpY z)).ea.toNat = (z.toNat + s.y.toNat) % 256) ∧
    (s.cfg.zpIndexMode = .signed16 →
      ((resolveEa s (.zpX z)).ea.toNat : Int) = ((z.toNat : Int) + s.x.toInt) % 65536 ∧
      ((resolveEa s (.zpY z)).ea.toNat : Int) = ((z.toNat : Int) + s.y.toInt) % 65536) ∧
    (resolveEa s (.zpX z)).crossed = false ∧ (resolveEa s (.zpY z)).crossed = false ∧
    (resolveEa s (.zpX z)).state = s ∧ (resolveEa s (.zpY z)).state = s

/-- O35. The address is the base plus the index modulo 65536, and a page is crossed exactly when the high bytes of base and address differ. (40_execution.md section 2) -/
def Obligations.AbsoluteIndexedAddress : Prop :=
  ∀ (s : State) (w : Word),
    (resolveEa s (.absX w)).ea.toNat = (w.toNat + s.x.toNat) % 65536 ∧
    (resolveEa s (.absY w)).ea.toNat = (w.toNat + s.y.toNat) % 65536 ∧
    ((resolveEa s (.absX w)).crossed = true ↔ w.toNat / 256 ≠ (resolveEa s (.absX w)).ea.toNat / 256) ∧
    ((resolveEa s (.absY w)).crossed = true ↔ w.toNat / 256 ≠ (resolveEa s (.absY w)).ea.toNat / 256) ∧
    (resolveEa s (.absX w)).state = s ∧ (resolveEa s (.absY w)).state = s

/-- O36. (Indirect,X) reads the pointer at the operand plus X modulo 256 and crosses no page; (Indirect),Y reads it at the operand, adds Y modulo 65536, and reports whether the page changed. (40_execution.md section 2) -/
def Obligations.IndirectIndexedAddresses : Prop :=
  ∀ (s : State) (z : Byte),
    (resolveEa s (.indX z)).ea = (readWordZP s (BitVec.ofNat 8 (z.toNat + s.x.toNat))).value ∧
    (resolveEa s (.indX z)).crossed = false ∧
    (resolveEa s (.indX z)).state = (readWordZP s (BitVec.ofNat 8 (z.toNat + s.x.toNat))).state ∧
    (resolveEa s (.indY z)).ea.toNat = ((readWordZP s z).value.toNat + s.y.toNat) % 65536 ∧
    ((resolveEa s (.indY z)).crossed = true ↔
      (readWordZP s z).value.toNat / 256 ≠ (resolveEa s (.indY z)).ea.toNat / 256) ∧
    (resolveEa s (.indY z)).state = (readWordZP s z).state

/-- O37. Every form of LDA: its bytes decode to it; it completes; A becomes the operand, N its bit 7, Z whether it is 0; no other flag, register, byte of memory nor PC changes; it costs its base count, plus 1 on a page crossing. (R121) -/
def Obligations.LDALoadsAccumulator : Prop :=
  ∀ (v z : Byte) (w : Word),
    LoadForm .a [0xA1#8, z] (.ldaIndX z) (.mem (.indX z)) 6 ∧
    LoadForm .a [0xA5#8, z] (.ldaZp z) (.mem (.zp z)) 3 ∧
    LoadForm .a [0xA9#8, v] (.ldaImm v) (.imm v) 2 ∧
    LoadForm .a (bytes3 0xAD#8 w) (.ldaAbs w) (.mem (.abs w)) 4 ∧
    LoadForm .a [0xB1#8, z] (.ldaIndY z) (.mem (.indY z)) 5 ∧
    LoadForm .a [0xB5#8, z] (.ldaZpX z) (.mem (.zpX z)) 4 ∧
    LoadForm .a (bytes3 0xB9#8 w) (.ldaAbsY w) (.mem (.absY w)) 4 ∧
    LoadForm .a (bytes3 0xBD#8 w) (.ldaAbsX w) (.mem (.absX w)) 4

/-- O38. Every form: its bytes decode to it; it completes; the register becomes the operand, N its bit 7, Z whether it is 0; no other flag, register, byte of memory nor PC changes; it costs its base count, plus 1 on a page crossing. (R122, R123) -/
def Obligations.LDXAndLDYLoadIndex : Prop :=
  ∀ (v z : Byte) (w : Word),
    LoadForm .x [0xA2#8, v] (.ldxImm v) (.imm v) 2 ∧
    LoadForm .x [0xA6#8, z] (.ldxZp z) (.mem (.zp z)) 3 ∧
    LoadForm .x (bytes3 0xAE#8 w) (.ldxAbs w) (.mem (.abs w)) 4 ∧
    LoadForm .x [0xB6#8, z] (.ldxZpY z) (.mem (.zpY z)) 4 ∧
    LoadForm .x (bytes3 0xBE#8 w) (.ldxAbsY w) (.mem (.absY w)) 4 ∧
    LoadForm .y [0xA0#8, v] (.ldyImm v) (.imm v) 2 ∧
    LoadForm .y [0xA4#8, z] (.ldyZp z) (.mem (.zp z)) 3 ∧
    LoadForm .y (bytes3 0xAC#8 w) (.ldyAbs w) (.mem (.abs w)) 4 ∧
    LoadForm .y [0xB4#8, z] (.ldyZpX z) (.mem (.zpX z)) 4 ∧
    LoadForm .y (bytes3 0xBC#8 w) (.ldyAbsX w) (.mem (.absX w)) 4

/-- O39. Every form: its bytes decode to it; it completes; the byte at the effective address becomes the register (through the write hook where trapped), every other byte, register and flag is as before; it costs its base count, plus 1 on a crossing only when P4 is AllIndexed. (R124, R125, R126) -/
def Obligations.StoresWriteOneByte : Prop :=
  ∀ (z : Byte) (w : Word),
    StoreForm .a [0x81#8, z] (.staIndX z) (.indX z) 6 ∧
    StoreForm .a [0x85#8, z] (.staZp z) (.zp z) 3 ∧
    StoreForm .a (bytes3 0x8D#8 w) (.staAbs w) (.abs w) 4 ∧
    StoreForm .a [0x91#8, z] (.staIndY z) (.indY z) 6 ∧
    StoreForm .a [0x95#8, z] (.staZpX z) (.zpX z) 4 ∧
    StoreForm .a (bytes3 0x99#8 w) (.staAbsY w) (.absY w) 5 ∧
    StoreForm .a (bytes3 0x9D#8 w) (.staAbsX w) (.absX w) 5 ∧
    StoreForm .x [0x86#8, z] (.stxZp z) (.zp z) 3 ∧
    StoreForm .x (bytes3 0x8E#8 w) (.stxAbs w) (.abs w) 4 ∧
    StoreForm .x [0x96#8, z] (.stxZpY z) (.zpY z) 4 ∧
    StoreForm .y [0x84#8, z] (.styZp z) (.zp z) 3 ∧
    StoreForm .y (bytes3 0x8C#8 w) (.styAbs w) (.abs w) 4 ∧
    StoreForm .y [0x94#8, z] (.styZpX z) (.zpX z) 4

/-- O40. Each completes in 2 cycles with the copy made; the first five set N and Z from the byte copied, TXS leaves every flag; nothing else changes. (R127, R128, R129, R130, R131, R132) -/
def Obligations.TransfersCopyRegister : Prop :=
  RegisterForm .x 0xAA#8 .tax (fun s => s.a) ∧
    RegisterForm .y 0xA8#8 .tay (fun s => s.a) ∧
    RegisterForm .a 0x8A#8 .txa (fun s => s.x) ∧
    RegisterForm .a 0x98#8 .tya (fun s => s.y) ∧
    RegisterForm .x 0xBA#8 .tsx (fun s => s.sp) ∧
    decode [0x9A#8] = .ok .txs [] ∧
    ∀ s, ∃ t, exec .txs s = .next t ∧ t.sp = s.x ∧ Frame [.sp] [] s t ∧ MemoryKept s t ∧ t.pc = s.pc ∧
      t.tickcount = s.tickcount + 2

/-- O41. Every form: A, C and V (in binary mode) are those of add_hex, A and C in decimal mode those of add_decimal with V the free value of P5; N and Z report A; nothing else changes. (R133) -/
def Obligations.ADCAddsWithCarry : Prop :=
  ∀ (v z : Byte) (w : Word),
    SumForm .adc addHex addDecimal [0x61#8, z] (.adcIndX z) (.mem (.indX z)) 6 ∧
    SumForm .adc addHex addDecimal [0x65#8, z] (.adcZp z) (.mem (.zp z)) 3 ∧
    SumForm .adc addHex addDecimal [0x69#8, v] (.adcImm v) (.imm v) 2 ∧
    SumForm .adc addHex addDecimal (bytes3 0x6D#8 w) (.adcAbs w) (.mem (.abs w)) 4 ∧
    SumForm .adc addHex addDecimal [0x71#8, z] (.adcIndY z) (.mem (.indY z)) 5 ∧
    SumForm .adc addHex addDecimal [0x75#8, z] (.adcZpX z) (.mem (.zpX z)) 4 ∧
    SumForm .adc addHex addDecimal (bytes3 0x79#8 w) (.adcAbsY w) (.mem (.absY w)) 4 ∧
    SumForm .adc addHex addDecimal (bytes3 0x7D#8 w) (.adcAbsX w) (.mem (.absX w)) 4

/-- O42. Every form: A, C and V (in binary mode) are those of subtract_hex, A and C in decimal mode those of subtract_decimal with V the free value of P5; N and Z report A; nothing else changes. (R134) -/
def Obligations.SBCSubtractsWithBorrow : Prop :=
  ∀ (v z : Byte) (w : Word),
    SumForm .sbc subtractHex subtractDecimal [0xE1#8, z] (.sbcIndX z) (.mem (.indX z)) 6 ∧
    SumForm .sbc subtractHex subtractDecimal [0xE5#8, z] (.sbcZp z) (.mem (.zp z)) 3 ∧
    SumForm .sbc subtractHex subtractDecimal [0xE9#8, v] (.sbcImm v) (.imm v) 2 ∧
    SumForm .sbc subtractHex subtractDecimal (bytes3 0xED#8 w) (.sbcAbs w) (.mem (.abs w)) 4 ∧
    SumForm .sbc subtractHex subtractDecimal [0xF1#8, z] (.sbcIndY z) (.mem (.indY z)) 5 ∧
    SumForm .sbc subtractHex subtractDecimal [0xF5#8, z] (.sbcZpX z) (.mem (.zpX z)) 4 ∧
    SumForm .sbc subtractHex subtractDecimal (bytes3 0xF9#8 w) (.sbcAbsY w) (.mem (.absY w)) 4 ∧
    SumForm .sbc subtractHex subtractDecimal (bytes3 0xFD#8 w) (.sbcAbsX w) (.mem (.absX w)) 4

/-- O43. Every form, in every mode of F.D: no register, V nor memory changes. (R135, R136, R137) -/
def Obligations.ComparesSetCarryZeroNegative : Prop :=
  ∀ (v z : Byte) (w : Word),
    CompareForm .a [0xC1#8, z] (.cmpIndX z) (.mem (.indX z)) 6 ∧
    CompareForm .a [0xC5#8, z] (.cmpZp z) (.mem (.zp z)) 3 ∧
    CompareForm .a [0xC9#8, v] (.cmpImm v) (.imm v) 2 ∧
    CompareForm .a (bytes3 0xCD#8 w) (.cmpAbs w) (.mem (.abs w)) 4 ∧
    CompareForm .a [0xD1#8, z] (.cmpIndY z) (.mem (.indY z)) 5 ∧
    CompareForm .a [0xD5#8, z] (.cmpZpX z) (.mem (.zpX z)) 4 ∧
    CompareForm .a (bytes3 0xD9#8 w) (.cmpAbsY w) (.mem (.absY w)) 4 ∧
    CompareForm .a (bytes3 0xDD#8 w) (.cmpAbsX w) (.mem (.absX w)) 4 ∧
    CompareForm .x [0xE0#8, v] (.cpxImm v) (.imm v) 2 ∧
    CompareForm .x [0xE4#8, z] (.cpxZp z) (.mem (.zp z)) 3 ∧
    CompareForm .x (bytes3 0xEC#8 w) (.cpxAbs w) (.mem (.abs w)) 4 ∧
    CompareForm .y [0xC0#8, v] (.cpyImm v) (.imm v) 2 ∧
    CompareForm .y [0xC4#8, z] (.cpyZp z) (.mem (.zp z)) 3 ∧
    CompareForm .y (bytes3 0xCC#8 w) (.cpyAbs w) (.mem (.abs w)) 4

/-- O44. Every form: N and Z report the result, no other flag, register or byte changes. (R138, R139) -/
def Obligations.MemoryIncrementDecrement : Prop :=
  ∀ (z : Byte) (w : Word),
    MemStepForm (fun v => v + 1#8) [0xE6#8, z] (.incZp z) (.zp z) 5 ∧
    MemStepForm (fun v => v + 1#8) (bytes3 0xEE#8 w) (.incAbs w) (.abs w) 6 ∧
    MemStepForm (fun v => v + 1#8) [0xF6#8, z] (.incZpX z) (.zpX z) 6 ∧
    MemStepForm (fun v => v + 1#8) (bytes3 0xFE#8 w) (.incAbsX w) (.absX w) 7 ∧
    MemStepForm (fun v => v - 1#8) [0xC6#8, z] (.decZp z) (.zp z) 5 ∧
    MemStepForm (fun v => v - 1#8) (bytes3 0xCE#8 w) (.decAbs w) (.abs w) 6 ∧
    MemStepForm (fun v => v - 1#8) [0xD6#8, z] (.decZpX z) (.zpX z) 6 ∧
    MemStepForm (fun v => v - 1#8) (bytes3 0xDE#8 w) (.decAbsX w) (.absX w) 7

/-- O45. N and Z report the result; no other flag, register or byte changes; 2 cycles. (R140, R141, R142, R143) -/
def Obligations.RegisterIncrementDecrement : Prop :=
  RegisterForm .x 0xE8#8 .inx (fun s => s.x + 1#8) ∧
    RegisterForm .y 0xC8#8 .iny (fun s => s.y + 1#8) ∧
    RegisterForm .x 0xCA#8 .dex (fun s => s.x - 1#8) ∧
    RegisterForm .y 0x88#8 .dey (fun s => s.y - 1#8)

/-- O46. Every form: N and Z report the result; C, V, every other register and all of memory are as before. (R144, R145, R146) -/
def Obligations.LogicOnAccumulator : Prop :=
  ∀ (v z : Byte) (w : Word),
    LogicForm (fun a b => a &&& b) [0x21#8, z] (.andIndX z) (.mem (.indX z)) 6 ∧
    LogicForm (fun a b => a &&& b) [0x25#8, z] (.andZp z) (.mem (.zp z)) 3 ∧
    LogicForm (fun a b => a &&& b) [0x29#8, v] (.andImm v) (.imm v) 2 ∧
    LogicForm (fun a b => a &&& b) (bytes3 0x2D#8 w) (.andAbs w) (.mem (.abs w)) 4 ∧
    LogicForm (fun a b => a &&& b) [0x31#8, z] (.andIndY z) (.mem (.indY z)) 5 ∧
    LogicForm (fun a b => a &&& b) [0x35#8, z] (.andZpX z) (.mem (.zpX z)) 4 ∧
    LogicForm (fun a b => a &&& b) (bytes3 0x39#8 w) (.andAbsY w) (.mem (.absY w)) 4 ∧
    LogicForm (fun a b => a &&& b) (bytes3 0x3D#8 w) (.andAbsX w) (.mem (.absX w)) 4 ∧
    LogicForm (fun a b => a ||| b) [0x01#8, z] (.oraIndX z) (.mem (.indX z)) 6 ∧
    LogicForm (fun a b => a ||| b) [0x05#8, z] (.oraZp z) (.mem (.zp z)) 3 ∧
    LogicForm (fun a b => a ||| b) [0x09#8, v] (.oraImm v) (.imm v) 2 ∧
    LogicForm (fun a b => a ||| b) (bytes3 0x0D#8 w) (.oraAbs w) (.mem (.abs w)) 4 ∧
    LogicForm (fun a b => a ||| b) [0x11#8, z] (.oraIndY z) (.mem (.indY z)) 5 ∧
    LogicForm (fun a b => a ||| b) [0x15#8, z] (.oraZpX z) (.mem (.zpX z)) 4 ∧
    LogicForm (fun a b => a ||| b) (bytes3 0x19#8 w) (.oraAbsY w) (.mem (.absY w)) 4 ∧
    LogicForm (fun a b => a ||| b) (bytes3 0x1D#8 w) (.oraAbsX w) (.mem (.absX w)) 4 ∧
    LogicForm (fun a b => a ^^^ b) [0x41#8, z] (.eorIndX z) (.mem (.indX z)) 6 ∧
    LogicForm (fun a b => a ^^^ b) [0x45#8, z] (.eorZp z) (.mem (.zp z)) 3 ∧
    LogicForm (fun a b => a ^^^ b) [0x49#8, v] (.eorImm v) (.imm v) 2 ∧
    LogicForm (fun a b => a ^^^ b) (bytes3 0x4D#8 w) (.eorAbs w) (.mem (.abs w)) 4 ∧
    LogicForm (fun a b => a ^^^ b) [0x51#8, z] (.eorIndY z) (.mem (.indY z)) 5 ∧
    LogicForm (fun a b => a ^^^ b) [0x55#8, z] (.eorZpX z) (.mem (.zpX z)) 4 ∧
    LogicForm (fun a b => a ^^^ b) (bytes3 0x59#8 w) (.eorAbsY w) (.mem (.absY w)) 4 ∧
    LogicForm (fun a b => a ^^^ b) (bytes3 0x5D#8 w) (.eorAbsX w) (.mem (.absX w)) 4

/-- O47. Both forms: C is unchanged and no register is written. (R147) -/
def Obligations.BITTestsMemory : Prop :=
  ∀ (z : Byte) (w : Word),
    decode [0x24#8, z] = .ok (.bitZp z) [] ∧
    (∀ s, ∃ t, exec (.bitZp z) s = .next t ∧
      t.flag .z = decide (s.a &&& (loadSource s (.mem (.zp z))).value = 0#8) ∧
      t.flag .n = (loadSource s (.mem (.zp z))).value.getLsbD 7 ∧ t.flag .v = (loadSource s (.mem (.zp z))).value.getLsbD 6 ∧
      Frame [] [.n, .v, .z] s t ∧ MemoryKept s t ∧ t.pc = s.pc ∧ t.tickcount = s.tickcount + 3) ∧
    decode (bytes3 0x2C#8 w) = .ok (.bitAbs w) [] ∧
    (∀ s, ∃ t, exec (.bitAbs w) s = .next t ∧
      t.flag .z = decide (s.a &&& (loadSource s (.mem (.abs w))).value = 0#8) ∧
      t.flag .n = (loadSource s (.mem (.abs w))).value.getLsbD 7 ∧ t.flag .v = (loadSource s (.mem (.abs w))).value.getLsbD 6 ∧
      Frame [] [.n, .v, .z] s t ∧ MemoryKept s t ∧ t.pc = s.pc ∧ t.tickcount = s.tickcount + 4)

/-- O48. Every form: N and Z report the result, no other flag, register or byte changes. (R148, R149) -/
def Obligations.ShiftsOnAccumulatorAndMemory : Prop :=
  ∀ (z : Byte) (w : Word),
    MemShiftForm (fun v _ => v <<< 1) (fun v => v.getLsbD 7) [0x06#8, z] (.aslZp z) (.zp z) 5 ∧
    AccShiftForm (fun v _ => v <<< 1) (fun v => v.getLsbD 7) 0x0A#8 .aslA ∧
    MemShiftForm (fun v _ => v <<< 1) (fun v => v.getLsbD 7) (bytes3 0x0E#8 w) (.aslAbs w) (.abs w) 6 ∧
    MemShiftForm (fun v _ => v <<< 1) (fun v => v.getLsbD 7) [0x16#8, z] (.aslZpX z) (.zpX z) 6 ∧
    MemShiftForm (fun v _ => v <<< 1) (fun v => v.getLsbD 7) (bytes3 0x1E#8 w) (.aslAbsX w) (.absX w) 7 ∧
    MemShiftForm (fun v _ => v >>> 1) (fun v => v.getLsbD 0) [0x46#8, z] (.lsrZp z) (.zp z) 5 ∧
    AccShiftForm (fun v _ => v >>> 1) (fun v => v.getLsbD 0) 0x4A#8 .lsrA ∧
    MemShiftForm (fun v _ => v >>> 1) (fun v => v.getLsbD 0) (bytes3 0x4E#8 w) (.lsrAbs w) (.abs w) 6 ∧
    MemShiftForm (fun v _ => v >>> 1) (fun v => v.getLsbD 0) [0x56#8, z] (.lsrZpX z) (.zpX z) 6 ∧
    MemShiftForm (fun v _ => v >>> 1) (fun v => v.getLsbD 0) (bytes3 0x5E#8 w) (.lsrAbsX w) (.absX w) 7

/-- O49. Every form: the old C goes in and the bit shifted out becomes C; N and Z report the result, no other flag, register or byte changes. (R150, R151) -/
def Obligations.RotatesThroughCarry : Prop :=
  ∀ (z : Byte) (w : Word),
    MemShiftForm (fun v c => (v <<< 1) ||| (if c then 0x01#8 else 0x00#8)) (fun v => v.getLsbD 7) [0x26#8, z] (.rolZp z) (.zp z) 5 ∧
    AccShiftForm (fun v c => (v <<< 1) ||| (if c then 0x01#8 else 0x00#8)) (fun v => v.getLsbD 7) 0x2A#8 .rolA ∧
    MemShiftForm (fun v c => (v <<< 1) ||| (if c then 0x01#8 else 0x00#8)) (fun v => v.getLsbD 7) (bytes3 0x2E#8 w) (.rolAbs w) (.abs w) 6 ∧
    MemShiftForm (fun v c => (v <<< 1) ||| (if c then 0x01#8 else 0x00#8)) (fun v => v.getLsbD 7) [0x36#8, z] (.rolZpX z) (.zpX z) 6 ∧
    MemShiftForm (fun v c => (v <<< 1) ||| (if c then 0x01#8 else 0x00#8)) (fun v => v.getLsbD 7) (bytes3 0x3E#8 w) (.rolAbsX w) (.absX w) 7 ∧
    MemShiftForm (fun v c => (v >>> 1) ||| (if c then 0x80#8 else 0x00#8)) (fun v => v.getLsbD 0) [0x66#8, z] (.rorZp z) (.zp z) 5 ∧
    AccShiftForm (fun v c => (v >>> 1) ||| (if c then 0x80#8 else 0x00#8)) (fun v => v.getLsbD 0) 0x6A#8 .rorA ∧
    MemShiftForm (fun v c => (v >>> 1) ||| (if c then 0x80#8 else 0x00#8)) (fun v => v.getLsbD 0) (bytes3 0x6E#8 w) (.rorAbs w) (.abs w) 6 ∧
    MemShiftForm (fun v c => (v >>> 1) ||| (if c then 0x80#8 else 0x00#8)) (fun v => v.getLsbD 0) [0x76#8, z] (.rorZpX z) (.zpX z) 6 ∧
    MemShiftForm (fun v c => (v >>> 1) ||| (if c then 0x80#8 else 0x00#8)) (fun v => v.getLsbD 0) (bytes3 0x7E#8 w) (.rorAbsX w) (.absX w) 7

/-- O50. SP goes down by 1, one byte of page 1 is written, no flag changes; 3 cycles. (R152, R153) -/
def Obligations.PushesOfAAndFlags : Prop :=
  PushForm 0x48#8 .pha (fun s => s.a) ∧
    PushForm 0x08#8 .php (fun s => s.f ||| 0x30#8)

/-- O51. SP goes up by 1, memory is unchanged; PLA changes N and Z only, PLP takes every other bit of F from the popped byte; 4 cycles. (R154, R155) -/
def Obligations.PullsOfAAndFlags : Prop :=
  decode [0x68#8] = .ok .pla [] ∧ decode [0x28#8] = .ok .plp [] ∧
    ∀ s : State,
      (∃ t, exec .pla s = .next t ∧ t.a = (pop8 s).value ∧ ReportsNZ (pop8 s).value t ∧ t.sp = s.sp + 1#8 ∧
        Frame [.a, .sp] [.n, .z] s t ∧ MemoryKept s t ∧ t.pc = s.pc ∧ t.tickcount = s.tickcount + 4) ∧
      (∃ t, exec .plp s = .next t ∧ t.f.getLsbD 4 = false ∧ t.f.getLsbD 5 = true ∧
        (∀ i, i ≠ 4 → i ≠ 5 → t.f.getLsbD i = (pop8 s).value.getLsbD i) ∧ t.sp = s.sp + 1#8 ∧
        RegsKept [.sp] s t ∧ HostStateKept s t ∧ MemoryKept s t ∧ t.pc = s.pc ∧ t.tickcount = s.tickcount + 4)

/-- O52. Each changes no other bit of F, no register and no byte of memory, and costs 2 cycles. (R156, R157, R158, R159, R160, R161, R162, R163) -/
def Obligations.FlagInstructionsAndNop : Prop :=
  FlagForm .c false 0x18#8 .clc ∧ FlagForm .c true 0x38#8 .sec ∧
    FlagForm .i false 0x58#8 .cli ∧ FlagForm .i true 0x78#8 .sei ∧
    FlagForm .d false 0xD8#8 .cld ∧ FlagForm .d true 0xF8#8 .sed ∧
    FlagForm .v false 0xB8#8 .clv ∧
    decode [0xEA#8] = .ok .nop [] ∧ ∀ s, exec .nop s = .next { s with tickcount := s.tickcount + 2 } ∧
      (s.status = .running → (memRead s s.pc).value = 0xEA#8 →
        step s = .next { (memRead s s.pc).state with pc := s.pc + 1#16, tickcount := s.tickcount + 2 })

/-- O53. Each completes whether taken or not; it costs 2 cycles, 3 when taken, 4 when taken to another page than that of PC_next; no flag, register or byte changes. (R164, R165, R166, R167, R168, R169, R170, R171, R172) -/
def Obligations.BranchesTestOneFlag : Prop :=
  BranchForm .n false 0x10#8 .bpl ∧ BranchForm .n true 0x30#8 .bmi ∧
    BranchForm .v false 0x50#8 .bvc ∧ BranchForm .v true 0x70#8 .bvs ∧
    BranchForm .c false 0x90#8 .bcc ∧ BranchForm .c true 0xB0#8 .bcs ∧
    BranchForm .z false 0xD0#8 .bne ∧ BranchForm .z true 0xF0#8 .beq

/-- O54. Absolute: 3 cycles. Indirect: the low byte at the pointer, the high byte at the next address, or, when P2 is true, at the next address of the pointer's page; P3 cycles. Nothing else changes. (R173) -/
def Obligations.JumpsSetPC : Prop :=
  ∀ (w : Word), decode (bytes3 0x4C#8 w) = .ok (.jmpAbs w) [] ∧ decode (bytes3 0x6C#8 w) = .ok (.jmpInd w) [] ∧
    ∀ s : State,
      exec (.jmpAbs w) s = .next { s with pc := w, tickcount := s.tickcount + 3 } ∧
      ∃ t, exec (.jmpInd w) s = .next t ∧
        (∃ hiAddr : Word,
          hiAddr.toNat = (if s.cfg.jmpIndPageWrap then w.toNat / 256 * 256 + (w.toNat + 1) % 256 else (w.toNat + 1) % 65536) ∧
          t.pc = mkWord (memRead (memRead s w).state hiAddr).value (memRead s w).value) ∧
        t.tickcount = s.tickcount + (match s.cfg.jmpIndCycles with | .five => 5 | .six => 6) ∧
        Frame [] [] s t ∧ MemoryKept s t

/-- O55. PC_next - 1 is the address of the JSR's last byte; SP goes down by 2, the two stack bytes are written and no other; no flag changes; 6 cycles. (R174) -/
def Obligations.JSRPushesReturnAddress : Prop :=
  ∀ (w : Word), decode (bytes3 0x20#8 w) = .ok (.jsr w) [] ∧ ∀ s : State, ∃ t, exec (.jsr w) s = .next t ∧
      t.pc = w ∧ t.sp = s.sp - 2#8 ∧
      t.byteAt (stackAddr s.sp) = storedByte s (stackAddr s.sp) ((s.pc - 1#16).extractLsb' 8 8) ∧
      t.byteAt (stackAddr (s.sp - 1#8)) =
        storedByte (push8 s ((s.pc - 1#16).extractLsb' 8 8)) (stackAddr (s.sp - 1#8)) ((s.pc - 1#16).extractLsb' 0 8) ∧
      MemoryKeptExcept [stackAddr s.sp, stackAddr (s.sp - 1#8)] s t ∧ Frame [.sp] [] s t ∧
      t.tickcount = s.tickcount + 6

/-- O56. SP goes up by 2; no flag, other register nor byte of memory changes; 6 cycles. (R175) -/
def Obligations.RTSPopsReturnAddress : Prop :=
  decode [0x60#8] = .ok .rts [] ∧ ∀ s : State, ∃ t, exec .rts s = .next t ∧
      t.pc.toNat = ((pop8 s).value.toNat + 256 * (pop8 (pop8 s).state).value.toNat + 1) % 65536 ∧
      t.sp = s.sp + 2#8 ∧ Frame [.sp] [] s t ∧ MemoryKept s t ∧ t.tickcount = s.tickcount + 6

/-- O57. With the two stack bytes not trapped: whatever the instruction stream, RTS executed right after JSR sets PC to the JSR's PC_next and restores SP. (46_control.md section 3, 95_test_vectors.md section 1) -/
def Obligations.CallThenReturn : Prop :=
  ∀ (s t : State) (w pcNext : Word),
    (∀ a : Word, a ∈ s.cfg.trapped → a ≠ stackAddr s.sp ∧ a ≠ stackAddr (s.sp - 1#8)) →
    exec (.jsr w) s = .next t →
    ∃ u, exec .rts (t.setPc pcNext) = .next u ∧ u.pc = s.pc ∧ u.sp = s.sp ∧ u.f = s.f ∧
      u.tickcount = s.tickcount + 12

/-- O58. SP goes down by 3; the three stack bytes are written and no other; F.I is set and no other bit of F changes; A, X and Y are as before; 7 cycles. (R176) -/
def Obligations.BRKTakesTheTrap : Prop :=
  decode [0x00#8] = .ok .brk [] ∧ ∀ s : State, ∃ t, exec .brk s = .next t ∧
      t.sp = s.sp - 3#8 ∧ t.flag .i = true ∧
      t.byteAt (stackAddr s.sp) = storedByte s (stackAddr s.sp) ((s.pc + 1#16).extractLsb' 8 8) ∧
      t.byteAt (stackAddr (s.sp - 1#8)) =
        storedByte (push8 s ((s.pc + 1#16).extractLsb' 8 8)) (stackAddr (s.sp - 1#8)) ((s.pc + 1#16).extractLsb' 0 8) ∧
      t.byteAt (stackAddr (s.sp - 2#8)) =
        storedByte (push16 s (s.pc + 1#16)) (stackAddr (s.sp - 2#8)) (s.f ||| 0x30#8) ∧
      t.pc = (readWord (push8 (push16 s (s.pc + 1#16)) (s.f ||| 0x30#8)) 0xFFFE#16).value ∧
      MemoryKeptExcept [stackAddr s.sp, stackAddr (s.sp - 1#8), stackAddr (s.sp - 2#8)] s t ∧
      Frame [.sp] [.i] s t ∧ t.tickcount = s.tickcount + 7

/-- O59. SP goes up by 3; bit 4 of F is 0, bit 5 is 1, the others are those of the popped byte; A, X, Y and memory are as before; 6 cycles. (R177) -/
def Obligations.RTIRestoresFlagsAndPC : Prop :=
  decode [0x40#8] = .ok .rti [] ∧ ∀ s : State, ∃ t, exec .rti s = .next t ∧
      t.f.getLsbD 4 = false ∧ t.f.getLsbD 5 = true ∧
      (∀ i, i ≠ 4 → i ≠ 5 → t.f.getLsbD i = (pop8 s).value.getLsbD i) ∧
      t.pc = (pop16 (pop8 s).state).value ∧ t.sp = s.sp + 3#8 ∧
      RegsKept [.sp] s t ∧ HostStateKept s t ∧ MemoryKept s t ∧ t.tickcount = s.tickcount + 6

/-- O60. With the three stack bytes not trapped and F of the form the core keeps (bit 5 at 1, F.B at 0): RTI executed right after BRK sets PC to PC_next + 1 and restores SP and every bit of F. (46_control.md section 4, 60_exceptions.md section 2) -/
def Obligations.TrapThenReturn : Prop :=
  ∀ (s t : State) (pcNext : Word),
    (∀ a : Word, a ∈ s.cfg.trapped →
      a ≠ stackAddr s.sp ∧ a ≠ stackAddr (s.sp - 1#8) ∧ a ≠ stackAddr (s.sp - 2#8)) →
    s.f.getLsbD 5 = true → s.flag .b = false →
    exec .brk s = .next t →
    ∃ u, exec .rti (t.setPc pcNext) = .next u ∧ u.pc = s.pc + 1#16 ∧ u.sp = s.sp ∧ u.f = s.f ∧
      u.tickcount = s.tickcount + 13
end

