-- ==== Sys2Proof/Laws/Bits.lean ====
section
/-!
SUPPORT. The bit-field and byte-order helpers as numbers.
-/
namespace Sys2Proof.Machine

@[simp] theorem mkWord_toNat (hi lo : Byte) : (mkWord hi lo).toNat = hi.toNat * 256 + lo.toNat := by
  simp only [mkWord, BitVec.toNat_ofNat]
  have := hi.isLt; have := lo.isLt
  omega

@[simp] theorem lo8_toNat (w : Word) : (lo8 w).toNat = w.toNat % 256 := by simp [lo8]

@[simp] theorem hi8_toNat (w : Word) : (hi8 w).toNat = w.toNat / 256 := by
  simp only [hi8, BitVec.toNat_ofNat]
  have := w.isLt
  omega

@[simp] theorem zext16_toNat (v : Byte) : (zext16 v).toNat = v.toNat := by
  simp only [zext16, BitVec.toNat_ofNat]
  have := v.isLt
  omega

/-- A word is its high byte and its low byte. -/
@[simp] theorem mkWord_hi8_lo8 (w : Word) : mkWord (hi8 w) (lo8 w) = w := by
  apply BitVec.eq_of_toNat_eq
  simp only [mkWord_toNat, hi8_toNat, lo8_toNat]
  omega

@[simp] theorem lo8_mkWord (hi lo : Byte) : lo8 (mkWord hi lo) = lo := by
  apply BitVec.eq_of_toNat_eq
  simp only [lo8_toNat, mkWord_toNat]
  have := lo.isLt
  omega

@[simp] theorem hi8_mkWord (hi lo : Byte) : hi8 (mkWord hi lo) = hi := by
  apply BitVec.eq_of_toNat_eq
  simp only [hi8_toNat, mkWord_toNat]
  have := lo.isLt
  omega

theorem lo8_eq_extract (w : Word) : lo8 w = w.extractLsb' 0 8 := by
  apply BitVec.eq_of_toNat_eq
  simp

theorem hi8_eq_extract (w : Word) : hi8 w = w.extractLsb' 8 8 := by
  apply BitVec.eq_of_toNat_eq
  have := w.isLt
  simp only [hi8_toNat, BitVec.extractLsb'_toNat, Nat.shiftRight_eq_div_pow]
  omega

/-- The stack page is page 1 (10_state.md R21). -/
@[simp] theorem stackAddr_toNat (sp : Byte) : (stackAddr sp).toNat = 256 + sp.toNat := by
  have h := sp.isLt
  simp only [stackAddr, BitVec.toNat_or, zext16_toNat]
  exact (Nat.two_pow_add_eq_or_of_lt (i := 8) h 1).symm

theorem stackAddr_injective {a b : Byte} (h : stackAddr a = stackAddr b) : a = b := by
  apply BitVec.eq_of_toNat_eq
  have := congrArg BitVec.toNat h
  simpa using this

theorem page_bne (a b : Word) : (page a != page b) = decide (a.toNat / 256 ≠ b.toNat / 256) := by
  have h : page a = page b ↔ a.toNat / 256 = b.toNat / 256 := by
    constructor
    · intro h; simpa [page] using congrArg BitVec.toNat h
    · intro h; apply BitVec.eq_of_toNat_eq; simpa [page] using h
  rw [bne, Bool.eq_iff_iff]
  simp [h]

end Sys2Proof.Machine
end

