-- ==== Sys2Proof/Laws/Exec.lean ====
section
/-!
SUPPORT. What executing an instruction can do, said once: exec answers a next state, and that state is what one of the shared
operations gives. A claim about every instruction is then one case per shared operation.
-/
namespace Sys2Proof.Machine

/-- The states that executing an instruction in `s` can give, by shared operation, with the bounds of the base cycle count. -/
inductive Shape (s : State) : State → Prop where
  | load (r : Reg) (src : Source) (base : Nat) (h : 2 ≤ base ∧ base ≤ 6) : Shape s (loadReg r src base s)
  | store (r : Reg) (m : EaMode) (base : Nat) (h : 3 ≤ base ∧ base ≤ 6) : Shape s (storeReg r m base s)
  | transfer (dst src : Reg) : Shape s (transfer dst src 2 s)
  | txs : Shape s ((s.setSp s.x).addTicks 2)
  | sum (op : DecimalOp) (bin : Byte → Byte → Bool → BinaryResult) (dec : Byte → Byte → Bool → CarryResult) (src : Source)
      (base : Nat) (h : 2 ≤ base ∧ base ≤ 6) : Shape s (addSub op bin dec src base s)
  | compare (r : Reg) (src : Source) (base : Nat) (h : 2 ≤ base ∧ base ≤ 6) : Shape s (compareReg r src base s)
  | memStep (op : Byte → Byte) (m : EaMode) (base : Nat) (h : 5 ≤ base ∧ base ≤ 7) : Shape s (stepAt op m base s)
  | regStep (op : Byte → Byte) (r : Reg) : Shape s (stepReg op r 2 s)
  | logic (op : Byte → Byte → Byte) (src : Source) (base : Nat) (h : 2 ≤ base ∧ base ≤ 6) : Shape s (logicA op src base s)
  | bit (m : EaMode) (base : Nat) (h : 3 ≤ base ∧ base ≤ 4) : Shape s (bitTest m base s)
  | accShift (op : Byte → Bool → CarryResult) : Shape s (shiftAt op .acc 2 s)
  | memShift (op : Byte → Bool → CarryResult) (m : EaMode) (base : Nat) (h : 5 ≤ base ∧ base ≤ 7) :
      Shape s (shiftAt op (.mem m) base s)
  | push (v : Byte) : Shape s ((push8 s v).addTicks 3)
  | pullA : Shape s (pullA 4 s)
  | plp : Shape s ((pullFlags s).addTicks 4)
  | flag (fl : Flag) (b : Bool) (h : fl ≠ .b) : Shape s ((s.setF (flagPut s.f fl b)).addTicks 2)
  | nop : Shape s (s.addTicks 2)
  | branch (cond : Bool) (rel : Byte) : Shape s (branch cond rel 2 s)
  | jump (w : Word) : Shape s ((s.setPc w).addTicks 3)
  | jumpIndirect (w : Word) : Shape s (jumpIndirect w s)
  | jsr (w : Word) : Shape s (((push16 s (s.pc - 1#16)).setPc w).addTicks 6)
  | rts : Shape s (returnFromSubroutine 6 s)
  | brk : Shape s ((trapEntry s (s.pc + 1#16) irqVector).addTicks 7)
  | rti : Shape s ((trapReturn s).addTicks 6)

/-- Every instruction completes, in a state of one of these shapes. -/
theorem exec_shape (i : Instr) (s : State) : ∃ t, exec i s = .next t ∧ Shape s t := by
  cases i with
  | ldaIndX _ => exact ⟨_, rfl, .load _ _ _ (by decide)⟩
  | ldaZp _ => exact ⟨_, rfl, .load _ _ _ (by decide)⟩
  | ldaImm _ => exact ⟨_, rfl, .load _ _ _ (by decide)⟩
  | ldaAbs _ => exact ⟨_, rfl, .load _ _ _ (by decide)⟩
  | ldaIndY _ => exact ⟨_, rfl, .load _ _ _ (by decide)⟩
  | ldaZpX _ => exact ⟨_, rfl, .load _ _ _ (by decide)⟩
  | ldaAbsY _ => exact ⟨_, rfl, .load _ _ _ (by decide)⟩
  | ldaAbsX _ => exact ⟨_, rfl, .load _ _ _ (by decide)⟩
  | ldxImm _ => exact ⟨_, rfl, .load _ _ _ (by decide)⟩
  | ldxZp _ => exact ⟨_, rfl, .load _ _ _ (by decide)⟩
  | ldxAbs _ => exact ⟨_, rfl, .load _ _ _ (by decide)⟩
  | ldxZpY _ => exact ⟨_, rfl, .load _ _ _ (by decide)⟩
  | ldxAbsY _ => exact ⟨_, rfl, .load _ _ _ (by decide)⟩
  | ldyImm _ => exact ⟨_, rfl, .load _ _ _ (by decide)⟩
  | ldyZp _ => exact ⟨_, rfl, .load _ _ _ (by decide)⟩
  | ldyAbs _ => exact ⟨_, rfl, .load _ _ _ (by decide)⟩
  | ldyZpX _ => exact ⟨_, rfl, .load _ _ _ (by decide)⟩
  | ldyAbsX _ => exact ⟨_, rfl, .load _ _ _ (by decide)⟩
  | staIndX _ => exact ⟨_, rfl, .store _ _ _ (by decide)⟩
  | staZp _ => exact ⟨_, rfl, .store _ _ _ (by decide)⟩
  | staAbs _ => exact ⟨_, rfl, .store _ _ _ (by decide)⟩
  | staIndY _ => exact ⟨_, rfl, .store _ _ _ (by decide)⟩
  | staZpX _ => exact ⟨_, rfl, .store _ _ _ (by decide)⟩
  | staAbsY _ => exact ⟨_, rfl, .store _ _ _ (by decide)⟩
  | staAbsX _ => exact ⟨_, rfl, .store _ _ _ (by decide)⟩
  | stxZp _ => exact ⟨_, rfl, .store _ _ _ (by decide)⟩
  | stxAbs _ => exact ⟨_, rfl, .store _ _ _ (by decide)⟩
  | stxZpY _ => exact ⟨_, rfl, .store _ _ _ (by decide)⟩
  | styZp _ => exact ⟨_, rfl, .store _ _ _ (by decide)⟩
  | styAbs _ => exact ⟨_, rfl, .store _ _ _ (by decide)⟩
  | styZpX _ => exact ⟨_, rfl, .store _ _ _ (by decide)⟩
  | tax => exact ⟨_, rfl, .transfer _ _⟩
  | tay => exact ⟨_, rfl, .transfer _ _⟩
  | txa => exact ⟨_, rfl, .transfer _ _⟩
  | tya => exact ⟨_, rfl, .transfer _ _⟩
  | tsx => exact ⟨_, rfl, .transfer _ _⟩
  | txs => exact ⟨_, rfl, .txs⟩
  | adcIndX _ => exact ⟨_, rfl, .sum _ _ _ _ _ (by decide)⟩
  | adcZp _ => exact ⟨_, rfl, .sum _ _ _ _ _ (by decide)⟩
  | adcImm _ => exact ⟨_, rfl, .sum _ _ _ _ _ (by decide)⟩
  | adcAbs _ => exact ⟨_, rfl, .sum _ _ _ _ _ (by decide)⟩
  | adcIndY _ => exact ⟨_, rfl, .sum _ _ _ _ _ (by decide)⟩
  | adcZpX _ => exact ⟨_, rfl, .sum _ _ _ _ _ (by decide)⟩
  | adcAbsY _ => exact ⟨_, rfl, .sum _ _ _ _ _ (by decide)⟩
  | adcAbsX _ => exact ⟨_, rfl, .sum _ _ _ _ _ (by decide)⟩
  | sbcIndX _ => exact ⟨_, rfl, .sum _ _ _ _ _ (by decide)⟩
  | sbcZp _ => exact ⟨_, rfl, .sum _ _ _ _ _ (by decide)⟩
  | sbcImm _ => exact ⟨_, rfl, .sum _ _ _ _ _ (by decide)⟩
  | sbcAbs _ => exact ⟨_, rfl, .sum _ _ _ _ _ (by decide)⟩
  | sbcIndY _ => exact ⟨_, rfl, .sum _ _ _ _ _ (by decide)⟩
  | sbcZpX _ => exact ⟨_, rfl, .sum _ _ _ _ _ (by decide)⟩
  | sbcAbsY _ => exact ⟨_, rfl, .sum _ _ _ _ _ (by decide)⟩
  | sbcAbsX _ => exact ⟨_, rfl, .sum _ _ _ _ _ (by decide)⟩
  | cmpIndX _ => exact ⟨_, rfl, .compare _ _ _ (by decide)⟩
  | cmpZp _ => exact ⟨_, rfl, .compare _ _ _ (by decide)⟩
  | cmpImm _ => exact ⟨_, rfl, .compare _ _ _ (by decide)⟩
  | cmpAbs _ => exact ⟨_, rfl, .compare _ _ _ (by decide)⟩
  | cmpIndY _ => exact ⟨_, rfl, .compare _ _ _ (by decide)⟩
  | cmpZpX _ => exact ⟨_, rfl, .compare _ _ _ (by decide)⟩
  | cmpAbsY _ => exact ⟨_, rfl, .compare _ _ _ (by decide)⟩
  | cmpAbsX _ => exact ⟨_, rfl, .compare _ _ _ (by decide)⟩
  | cpxImm _ => exact ⟨_, rfl, .compare _ _ _ (by decide)⟩
  | cpxZp _ => exact ⟨_, rfl, .compare _ _ _ (by decide)⟩
  | cpxAbs _ => exact ⟨_, rfl, .compare _ _ _ (by decide)⟩
  | cpyImm _ => exact ⟨_, rfl, .compare _ _ _ (by decide)⟩
  | cpyZp _ => exact ⟨_, rfl, .compare _ _ _ (by decide)⟩
  | cpyAbs _ => exact ⟨_, rfl, .compare _ _ _ (by decide)⟩
  | incZp _ => exact ⟨_, rfl, .memStep _ _ _ (by decide)⟩
  | incAbs _ => exact ⟨_, rfl, .memStep _ _ _ (by decide)⟩
  | incZpX _ => exact ⟨_, rfl, .memStep _ _ _ (by decide)⟩
  | incAbsX _ => exact ⟨_, rfl, .memStep _ _ _ (by decide)⟩
  | decZp _ => exact ⟨_, rfl, .memStep _ _ _ (by decide)⟩
  | decAbs _ => exact ⟨_, rfl, .memStep _ _ _ (by decide)⟩
  | decZpX _ => exact ⟨_, rfl, .memStep _ _ _ (by decide)⟩
  | decAbsX _ => exact ⟨_, rfl, .memStep _ _ _ (by decide)⟩
  | inx => exact ⟨_, rfl, .regStep _ _⟩
  | iny => exact ⟨_, rfl, .regStep _ _⟩
  | dex => exact ⟨_, rfl, .regStep _ _⟩
  | dey => exact ⟨_, rfl, .regStep _ _⟩
  | andIndX _ => exact ⟨_, rfl, .logic _ _ _ (by decide)⟩
  | andZp _ => exact ⟨_, rfl, .logic _ _ _ (by decide)⟩
  | andImm _ => exact ⟨_, rfl, .logic _ _ _ (by decide)⟩
  | andAbs _ => exact ⟨_, rfl, .logic _ _ _ (by decide)⟩
  | andIndY _ => exact ⟨_, rfl, .logic _ _ _ (by decide)⟩
  | andZpX _ => exact ⟨_, rfl, .logic _ _ _ (by decide)⟩
  | andAbsY _ => exact ⟨_, rfl, .logic _ _ _ (by decide)⟩
  | andAbsX _ => exact ⟨_, rfl, .logic _ _ _ (by decide)⟩
  | oraIndX _ => exact ⟨_, rfl, .logic _ _ _ (by decide)⟩
  | oraZp _ => exact ⟨_, rfl, .logic _ _ _ (by decide)⟩
  | oraImm _ => exact ⟨_, rfl, .logic _ _ _ (by decide)⟩
  | oraAbs _ => exact ⟨_, rfl, .logic _ _ _ (by decide)⟩
  | oraIndY _ => exact ⟨_, rfl, .logic _ _ _ (by decide)⟩
  | oraZpX _ => exact ⟨_, rfl, .logic _ _ _ (by decide)⟩
  | oraAbsY _ => exact ⟨_, rfl, .logic _ _ _ (by decide)⟩
  | oraAbsX _ => exact ⟨_, rfl, .logic _ _ _ (by decide)⟩
  | eorIndX _ => exact ⟨_, rfl, .logic _ _ _ (by decide)⟩
  | eorZp _ => exact ⟨_, rfl, .logic _ _ _ (by decide)⟩
  | eorImm _ => exact ⟨_, rfl, .logic _ _ _ (by decide)⟩
  | eorAbs _ => exact ⟨_, rfl, .logic _ _ _ (by decide)⟩
  | eorIndY _ => exact ⟨_, rfl, .logic _ _ _ (by decide)⟩
  | eorZpX _ => exact ⟨_, rfl, .logic _ _ _ (by decide)⟩
  | eorAbsY _ => exact ⟨_, rfl, .logic _ _ _ (by decide)⟩
  | eorAbsX _ => exact ⟨_, rfl, .logic _ _ _ (by decide)⟩
  | bitZp _ => exact ⟨_, rfl, .bit _ _ (by decide)⟩
  | bitAbs _ => exact ⟨_, rfl, .bit _ _ (by decide)⟩
  | aslZp _ => exact ⟨_, rfl, .memShift _ _ _ (by decide)⟩
  | aslA => exact ⟨_, rfl, .accShift _⟩
  | aslAbs _ => exact ⟨_, rfl, .memShift _ _ _ (by decide)⟩
  | aslZpX _ => exact ⟨_, rfl, .memShift _ _ _ (by decide)⟩
  | aslAbsX _ => exact ⟨_, rfl, .memShift _ _ _ (by decide)⟩
  | lsrZp _ => exact ⟨_, rfl, .memShift _ _ _ (by decide)⟩
  | lsrA => exact ⟨_, rfl, .accShift _⟩
  | lsrAbs _ => exact ⟨_, rfl, .memShift _ _ _ (by decide)⟩
  | lsrZpX _ => exact ⟨_, rfl, .memShift _ _ _ (by decide)⟩
  | lsrAbsX _ => exact ⟨_, rfl, .memShift _ _ _ (by decide)⟩
  | rolZp _ => exact ⟨_, rfl, .memShift _ _ _ (by decide)⟩
  | rolA => exact ⟨_, rfl, .accShift _⟩
  | rolAbs _ => exact ⟨_, rfl, .memShift _ _ _ (by decide)⟩
  | rolZpX _ => exact ⟨_, rfl, .memShift _ _ _ (by decide)⟩
  | rolAbsX _ => exact ⟨_, rfl, .memShift _ _ _ (by decide)⟩
  | rorZp _ => exact ⟨_, rfl, .memShift _ _ _ (by decide)⟩
  | rorA => exact ⟨_, rfl, .accShift _⟩
  | rorAbs _ => exact ⟨_, rfl, .memShift _ _ _ (by decide)⟩
  | rorZpX _ => exact ⟨_, rfl, .memShift _ _ _ (by decide)⟩
  | rorAbsX _ => exact ⟨_, rfl, .memShift _ _ _ (by decide)⟩
  | pha => exact ⟨_, rfl, .push _⟩
  | php => exact ⟨_, rfl, .push _⟩
  | pla => exact ⟨_, rfl, .pullA⟩
  | plp => exact ⟨_, rfl, .plp⟩
  | clc => exact ⟨_, rfl, .flag _ false (by decide)⟩
  | sec => exact ⟨_, rfl, .flag _ true (by decide)⟩
  | cli => exact ⟨_, rfl, .flag _ false (by decide)⟩
  | sei => exact ⟨_, rfl, .flag _ true (by decide)⟩
  | cld => exact ⟨_, rfl, .flag _ false (by decide)⟩
  | sed => exact ⟨_, rfl, .flag _ true (by decide)⟩
  | clv => exact ⟨_, rfl, .flag _ false (by decide)⟩
  | nop => exact ⟨_, rfl, .nop⟩
  | bpl _ => exact ⟨_, rfl, .branch _ _⟩
  | bmi _ => exact ⟨_, rfl, .branch _ _⟩
  | bvc _ => exact ⟨_, rfl, .branch _ _⟩
  | bvs _ => exact ⟨_, rfl, .branch _ _⟩
  | bcc _ => exact ⟨_, rfl, .branch _ _⟩
  | bcs _ => exact ⟨_, rfl, .branch _ _⟩
  | bne _ => exact ⟨_, rfl, .branch _ _⟩
  | beq _ => exact ⟨_, rfl, .branch _ _⟩
  | jmpAbs _ => exact ⟨_, rfl, .jump _⟩
  | jmpInd _ => exact ⟨_, rfl, .jumpIndirect _⟩
  | jsr _ => exact ⟨_, rfl, .jsr _⟩
  | rts => exact ⟨_, rfl, .rts⟩
  | brk => exact ⟨_, rfl, .brk⟩
  | rti => exact ⟨_, rfl, .rti⟩

end Sys2Proof.Machine
end

