-- ==== Sys2Proof/Laws/Flags.lean ====
section
/-!
SUPPORT. What each flag computation leaves in each bit of F.
-/
namespace Sys2Proof.Machine

theorem Flag.bit_lt (fl : Flag) : fl.bit < 8 := by cases fl <;> decide

theorem Flag.bit_injective {x y : Flag} (h : x.bit = y.bit) : x = y := by
  cases x <;> cases y <;> first | rfl | exact absurd h (by decide)

theorem Flag.bit_ne_five (fl : Flag) : fl.bit ≠ 5 := by cases fl <;> decide

/-- A flag write changes its own bit only (10_state.md R24). -/
theorem getLsbD_flagPut (f : Byte) (fl : Flag) (b : Bool) (i : Nat) :
    (flagPut f fl b).getLsbD i = if i = fl.bit then b else f.getLsbD i := by
  have hb := fl.bit_lt
  by_cases h8 : i < 8
  · cases b
    · cases fl <;> simp only [flagPut, flagClear, Flag.bit] <;> interval_cases i <;> simp
    · cases fl <;> simp only [flagPut, flagSet, Flag.bit] <;> interval_cases i <;> simp
  · have h1 : ∀ g : Byte, g.getLsbD i = false := fun g => BitVec.getLsbD_of_ge g i (by omega)
    rw [h1, h1, if_neg (by omega)]

@[simp] theorem flagTest_flagPut (f : Byte) (x y : Flag) (b : Bool) :
    flagTest (flagPut f x b) y = if y = x then b else flagTest f y := by
  unfold flagTest
  rw [getLsbD_flagPut]
  by_cases h : y = x
  · simp [h]
  · rw [if_neg h, if_neg fun e => h (Flag.bit_injective e)]

theorem flagSet_eq_put (f : Byte) (fl : Flag) : flagSet f fl = flagPut f fl true := rfl

theorem flagClear_eq_put (f : Byte) (fl : Flag) : flagClear f fl = flagPut f fl false := rfl

theorem getLsbD_setNZ (f v : Byte) (i : Nat) :
    (setNZ f v).getLsbD i = if i = 1 then v == 0#8 else if i = 7 then v.getLsbD 7 else f.getLsbD i := by
  simp only [setNZ, getLsbD_flagPut]; rfl

theorem getLsbD_compareFlags (f reg v : Byte) (i : Nat) :
    (compareFlags f reg v).getLsbD i =
      if i = 1 then reg - v == 0#8 else if i = 7 then (reg - v).getLsbD 7
      else if i = 0 then decide (v.toNat ≤ reg.toNat) else f.getLsbD i := by
  simp only [compareFlags, getLsbD_setNZ, getLsbD_flagPut]; rfl

theorem getLsbD_bitTestFlags (f a m : Byte) (i : Nat) :
    (bitTestFlags f a m).getLsbD i =
      if i = 6 then m.getLsbD 6 else if i = 7 then m.getLsbD 7 else if i = 1 then a &&& m == 0#8 else f.getLsbD i := by
  simp only [bitTestFlags, getLsbD_flagPut]; rfl

theorem getLsbD_pushedFlags (f : Byte) (i : Nat) :
    (pushedFlags f).getLsbD i = if i = 4 ∨ i = 5 then true else f.getLsbD i := by
  by_cases h8 : i < 8
  · simp only [pushedFlags]; interval_cases i <;> simp
  · have h1 : ∀ g : Byte, g.getLsbD i = false := fun g => BitVec.getLsbD_of_ge g i (by omega)
    rw [h1, h1, if_neg (by omega)]

theorem getLsbD_pulledFlags (v : Byte) (i : Nat) :
    (pulledFlags v).getLsbD i = if i = 4 then false else if i = 5 then true else v.getLsbD i := by
  by_cases h8 : i < 8
  · simp only [pulledFlags]; interval_cases i <;> simp
  · have h1 : ∀ g : Byte, g.getLsbD i = false := fun g => BitVec.getLsbD_of_ge g i (by omega)
    rw [h1, h1, if_neg (by omega), if_neg (by omega)]

end Sys2Proof.Machine
end

