-- ==== Sys2Proof/Laws/Memory.lean ====
section
/-!
SUPPORT. The laws of the memory list: a read after a write, the canonical form, and that equal contents are equal lists.
-/
namespace Sys2Proof.Machine

theorem Memory.read_erase (m : Memory) (a b : Nat) :
    Memory.read (Memory.erase m a) b = if b = a then 0#8 else Memory.read m b := by
  induction m with
  | nil => simp [Memory.erase, Memory.read]
  | cons c rest ih =>
    obtain ⟨k, v⟩ := c
    by_cases hk : k = a
    · subst hk
      rw [show Memory.erase ((k, v) :: rest) k = Memory.erase rest k by simp [Memory.erase], ih]
      by_cases hb : b = k
      · simp [hb]
      · simp [Memory.read, hb, Ne.symm hb]
    · by_cases hb : b = a
      · subst hb; simp [Memory.erase, Memory.read, ih, hk]
      · simp [Memory.erase, Memory.read, ih, hk, hb]

theorem Memory.read_insert (m : Memory) (a b : Nat) (v : Byte) :
    Memory.read (Memory.insert m a v) b = if b = a then v else Memory.read m b := by
  induction m with
  | nil =>
    by_cases hb : b = a
    · simp [Memory.insert, Memory.read, hb]
    · simp [Memory.insert, Memory.read, hb, Ne.symm hb]
  | cons c rest ih =>
    obtain ⟨k, w⟩ := c
    unfold Memory.insert
    split
    · by_cases hb : b = a
      · simp [Memory.read, hb]
      · simp [Memory.read, hb, Ne.symm hb]
    · split
      · subst k
        by_cases hb : b = a
        · simp [Memory.read, hb]
        · simp [Memory.read, hb, Ne.symm hb]
      · by_cases hk : k = b
        · subst hk; simp [Memory.read, *]
        · simp [Memory.read, hk, ih]

/-- A read after a write, whatever the list (20_memory.md R44). -/
theorem Memory.read_write (m : Memory) (a b : Nat) (v : Byte) :
    Memory.read (Memory.write m a v) b = if b = a then v else Memory.read m b := by
  unfold Memory.write
  split
  · subst v; exact Memory.read_erase m a b
  · exact Memory.read_insert m a b v

theorem Memory.wfFrom_mono {lo lo' : Nat} {m : Memory} (hle : lo ≤ lo') (h : Memory.wfFrom lo' m = true) :
    Memory.wfFrom lo m = true := by
  cases m with
  | nil => rfl
  | cons c rest =>
    simp only [Memory.wfFrom, Bool.and_eq_true, decide_eq_true_eq] at h ⊢
    exact ⟨⟨⟨by omega, h.1.1.2⟩, h.1.2⟩, h.2⟩

theorem Memory.wfFrom_erase {lo : Nat} {m : Memory} (a : Nat) (h : Memory.wfFrom lo m = true) :
    Memory.wfFrom lo (Memory.erase m a) = true := by
  induction m generalizing lo with
  | nil => rfl
  | cons c rest ih =>
    simp only [Memory.wfFrom, Bool.and_eq_true, decide_eq_true_eq] at h
    unfold Memory.erase
    split
    · exact Memory.wfFrom_mono (by omega) (ih h.2)
    · simp only [Memory.wfFrom, Bool.and_eq_true, decide_eq_true_eq]
      exact ⟨h.1, ih h.2⟩

theorem Memory.wfFrom_insert {lo a : Nat} {m : Memory} {v : Byte} (h : Memory.wfFrom lo m = true) (hlo : lo ≤ a)
    (ha : a < 65536) (hv : v ≠ 0#8) : Memory.wfFrom lo (Memory.insert m a v) = true := by
  induction m generalizing lo with
  | nil => simp [Memory.insert, Memory.wfFrom, hlo, ha, hv]
  | cons c rest ih =>
    have h0 := h
    simp only [Memory.wfFrom, Bool.and_eq_true, decide_eq_true_eq] at h
    unfold Memory.insert
    split
    · rename_i hlt
      simp only [Memory.wfFrom, Bool.and_eq_true, decide_eq_true_eq]
      exact ⟨⟨⟨hlo, ha⟩, hv⟩, ⟨⟨by omega, h.1.1.2⟩, h.1.2⟩, h.2⟩
    · split
      · rename_i heq
        subst heq
        simp only [Memory.wfFrom, Bool.and_eq_true, decide_eq_true_eq]
        exact ⟨⟨⟨hlo, ha⟩, hv⟩, h.2⟩
      · simp only [Memory.wfFrom, Bool.and_eq_true, decide_eq_true_eq]
        exact ⟨h.1, ih h.2 (by omega)⟩

/-- A write at an address of the hardware keeps the canonical form. -/
theorem Memory.wf_write {m : Memory} (h : m.wf = true) (a : Word) (v : Byte) :
    (Memory.write m a.toNat v).wf = true := by
  unfold Memory.write
  split
  · exact Memory.wfFrom_erase _ h
  · exact Memory.wfFrom_insert h (Nat.zero_le _) a.isLt ‹_›

theorem Memory.read_eq_zero_of_wfFrom {lo a : Nat} {m : Memory} (h : Memory.wfFrom lo m = true) (ha : a < lo) :
    Memory.read m a = 0#8 := by
  induction m generalizing lo with
  | nil => rfl
  | cons c rest ih =>
    simp only [Memory.wfFrom, Bool.and_eq_true, decide_eq_true_eq] at h
    have hne : c.1 ≠ a := by omega
    simp only [Memory.read, hne, if_false]
    exact ih h.2 (by omega)

theorem Memory.ext_wfFrom {lo : Nat} {m m' : Memory} (h : Memory.wfFrom lo m = true) (h' : Memory.wfFrom lo m' = true)
    (hr : ∀ a, Memory.read m a = Memory.read m' a) : m = m' := by
  induction m generalizing lo m' with
  | nil =>
    cases m' with
    | nil => rfl
    | cons c rest =>
      simp only [Memory.wfFrom, Bool.and_eq_true, decide_eq_true_eq] at h'
      exact absurd (by simpa [Memory.read] using (hr c.1).symm) h'.1.2
  | cons c rest ih =>
    obtain ⟨k, v⟩ := c
    simp only [Memory.wfFrom, Bool.and_eq_true, decide_eq_true_eq] at h
    cases m' with
    | nil => exact absurd (by simpa [Memory.read] using hr k) h.1.2
    | cons c' rest' =>
      obtain ⟨k', v'⟩ := c'
      simp only [Memory.wfFrom, Bool.and_eq_true, decide_eq_true_eq] at h'
      have hk : k = k' := by
        rcases Nat.lt_trichotomy k k' with hlt | heq | hlt
        · have := hr k
          rw [Memory.read_eq_zero_of_wfFrom (lo := k + 1) (m := (k', v') :: rest')] at this
          · exact absurd (by simpa [Memory.read] using this) h.1.2
          · simp only [Memory.wfFrom, Bool.and_eq_true, decide_eq_true_eq]
            exact ⟨⟨⟨hlt, h'.1.1.2⟩, h'.1.2⟩, h'.2⟩
          · omega
        · exact heq
        · have := hr k'
          rw [Memory.read_eq_zero_of_wfFrom (lo := k' + 1) (m := (k, v) :: rest)] at this
          · exact absurd (by simpa [Memory.read] using this.symm) h'.1.2
          · simp only [Memory.wfFrom, Bool.and_eq_true, decide_eq_true_eq]
            exact ⟨⟨⟨hlt, h.1.1.2⟩, h.1.2⟩, h.2⟩
          · omega
      subst hk
      have hv : v = v' := by simpa [Memory.read] using hr k
      subst hv
      have hrest : rest = rest' := by
        refine ih h.2 h'.2 fun a => ?_
        by_cases ha : a = k
        · subst ha
          rw [Memory.read_eq_zero_of_wfFrom h.2 (Nat.lt_succ_self _), Memory.read_eq_zero_of_wfFrom h'.2 (Nat.lt_succ_self _)]
        · have := hr a
          simpa [Memory.read, Ne.symm ha] using this
      rw [hrest]

/-- Two canonical memories that read the same are the same list. -/
theorem Memory.ext_wf {m m' : Memory} (h : m.wf = true) (h' : m'.wf = true)
    (hr : ∀ a, Memory.read m a = Memory.read m' a) : m = m' := Memory.ext_wfFrom h h' hr

/-- Any bytes can stand in memory: reading a byte of the state after writing one. -/
theorem State.setByte_byteAt (s : State) (a b : Word) (v : Byte) :
    (s.setByte a v).byteAt b = if b = a then v else s.byteAt b := by
  have : (b.toNat = a.toNat) ↔ b = a := ⟨fun h => BitVec.eq_of_toNat_eq h, fun h => by rw [h]⟩
  simp only [State.byteAt, State.setByte, State.setMem, Memory.read_write, this]

theorem State.setByte_wf {s : State} (h : s.mem.wf = true) (a : Word) (v : Byte) : (s.setByte a v).mem.wf = true :=
  Memory.wf_write h a v

end Sys2Proof.Machine
end

