-- ==== Sys2Proof/Laws/State.lean ====
section
/-!
SUPPORT. What each named update of the state leaves in each field: one lemma per update and field.
-/
namespace Sys2Proof.Machine

variable (s : State)

@[simp] theorem State.setA_a (v : Byte) : (s.setA v).a = v := rfl
@[simp] theorem State.setA_x (v : Byte) : (s.setA v).x = s.x := rfl
@[simp] theorem State.setA_y (v : Byte) : (s.setA v).y = s.y := rfl
@[simp] theorem State.setA_sp (v : Byte) : (s.setA v).sp = s.sp := rfl
@[simp] theorem State.setA_pc (v : Byte) : (s.setA v).pc = s.pc := rfl
@[simp] theorem State.setA_f (v : Byte) : (s.setA v).f = s.f := rfl
@[simp] theorem State.setA_tickcount (v : Byte) : (s.setA v).tickcount = s.tickcount := rfl
@[simp] theorem State.setA_waitingForNmi (v : Byte) : (s.setA v).waitingForNmi = s.waitingForNmi := rfl
@[simp] theorem State.setA_waitingForIrq (v : Byte) : (s.setA v).waitingForIrq = s.waitingForIrq := rfl
@[simp] theorem State.setA_status (v : Byte) : (s.setA v).status = s.status := rfl
@[simp] theorem State.setA_mem (v : Byte) : (s.setA v).mem = s.mem := rfl
@[simp] theorem State.setA_cfg (v : Byte) : (s.setA v).cfg = s.cfg := rfl
@[simp] theorem State.setA_hookCalls (v : Byte) : (s.setA v).hookCalls = s.hookCalls := rfl

@[simp] theorem State.setX_a (v : Byte) : (s.setX v).a = s.a := rfl
@[simp] theorem State.setX_x (v : Byte) : (s.setX v).x = v := rfl
@[simp] theorem State.setX_y (v : Byte) : (s.setX v).y = s.y := rfl
@[simp] theorem State.setX_sp (v : Byte) : (s.setX v).sp = s.sp := rfl
@[simp] theorem State.setX_pc (v : Byte) : (s.setX v).pc = s.pc := rfl
@[simp] theorem State.setX_f (v : Byte) : (s.setX v).f = s.f := rfl
@[simp] theorem State.setX_tickcount (v : Byte) : (s.setX v).tickcount = s.tickcount := rfl
@[simp] theorem State.setX_waitingForNmi (v : Byte) : (s.setX v).waitingForNmi = s.waitingForNmi := rfl
@[simp] theorem State.setX_waitingForIrq (v : Byte) : (s.setX v).waitingForIrq = s.waitingForIrq := rfl
@[simp] theorem State.setX_status (v : Byte) : (s.setX v).status = s.status := rfl
@[simp] theorem State.setX_mem (v : Byte) : (s.setX v).mem = s.mem := rfl
@[simp] theorem State.setX_cfg (v : Byte) : (s.setX v).cfg = s.cfg := rfl
@[simp] theorem State.setX_hookCalls (v : Byte) : (s.setX v).hookCalls = s.hookCalls := rfl

@[simp] theorem State.setY_a (v : Byte) : (s.setY v).a = s.a := rfl
@[simp] theorem State.setY_x (v : Byte) : (s.setY v).x = s.x := rfl
@[simp] theorem State.setY_y (v : Byte) : (s.setY v).y = v := rfl
@[simp] theorem State.setY_sp (v : Byte) : (s.setY v).sp = s.sp := rfl
@[simp] theorem State.setY_pc (v : Byte) : (s.setY v).pc = s.pc := rfl
@[simp] theorem State.setY_f (v : Byte) : (s.setY v).f = s.f := rfl
@[simp] theorem State.setY_tickcount (v : Byte) : (s.setY v).tickcount = s.tickcount := rfl
@[simp] theorem State.setY_waitingForNmi (v : Byte) : (s.setY v).waitingForNmi = s.waitingForNmi := rfl
@[simp] theorem State.setY_waitingForIrq (v : Byte) : (s.setY v).waitingForIrq = s.waitingForIrq := rfl
@[simp] theorem State.setY_status (v : Byte) : (s.setY v).status = s.status := rfl
@[simp] theorem State.setY_mem (v : Byte) : (s.setY v).mem = s.mem := rfl
@[simp] theorem State.setY_cfg (v : Byte) : (s.setY v).cfg = s.cfg := rfl
@[simp] theorem State.setY_hookCalls (v : Byte) : (s.setY v).hookCalls = s.hookCalls := rfl

@[simp] theorem State.setSp_a (v : Byte) : (s.setSp v).a = s.a := rfl
@[simp] theorem State.setSp_x (v : Byte) : (s.setSp v).x = s.x := rfl
@[simp] theorem State.setSp_y (v : Byte) : (s.setSp v).y = s.y := rfl
@[simp] theorem State.setSp_sp (v : Byte) : (s.setSp v).sp = v := rfl
@[simp] theorem State.setSp_pc (v : Byte) : (s.setSp v).pc = s.pc := rfl
@[simp] theorem State.setSp_f (v : Byte) : (s.setSp v).f = s.f := rfl
@[simp] theorem State.setSp_tickcount (v : Byte) : (s.setSp v).tickcount = s.tickcount := rfl
@[simp] theorem State.setSp_waitingForNmi (v : Byte) : (s.setSp v).waitingForNmi = s.waitingForNmi := rfl
@[simp] theorem State.setSp_waitingForIrq (v : Byte) : (s.setSp v).waitingForIrq = s.waitingForIrq := rfl
@[simp] theorem State.setSp_status (v : Byte) : (s.setSp v).status = s.status := rfl
@[simp] theorem State.setSp_mem (v : Byte) : (s.setSp v).mem = s.mem := rfl
@[simp] theorem State.setSp_cfg (v : Byte) : (s.setSp v).cfg = s.cfg := rfl
@[simp] theorem State.setSp_hookCalls (v : Byte) : (s.setSp v).hookCalls = s.hookCalls := rfl

@[simp] theorem State.setPc_a (w : Word) : (s.setPc w).a = s.a := rfl
@[simp] theorem State.setPc_x (w : Word) : (s.setPc w).x = s.x := rfl
@[simp] theorem State.setPc_y (w : Word) : (s.setPc w).y = s.y := rfl
@[simp] theorem State.setPc_sp (w : Word) : (s.setPc w).sp = s.sp := rfl
@[simp] theorem State.setPc_pc (w : Word) : (s.setPc w).pc = w := rfl
@[simp] theorem State.setPc_f (w : Word) : (s.setPc w).f = s.f := rfl
@[simp] theorem State.setPc_tickcount (w : Word) : (s.setPc w).tickcount = s.tickcount := rfl
@[simp] theorem State.setPc_waitingForNmi (w : Word) : (s.setPc w).waitingForNmi = s.waitingForNmi := rfl
@[simp] theorem State.setPc_waitingForIrq (w : Word) : (s.setPc w).waitingForIrq = s.waitingForIrq := rfl
@[simp] theorem State.setPc_status (w : Word) : (s.setPc w).status = s.status := rfl
@[simp] theorem State.setPc_mem (w : Word) : (s.setPc w).mem = s.mem := rfl
@[simp] theorem State.setPc_cfg (w : Word) : (s.setPc w).cfg = s.cfg := rfl
@[simp] theorem State.setPc_hookCalls (w : Word) : (s.setPc w).hookCalls = s.hookCalls := rfl

@[simp] theorem State.setF_a (v : Byte) : (s.setF v).a = s.a := rfl
@[simp] theorem State.setF_x (v : Byte) : (s.setF v).x = s.x := rfl
@[simp] theorem State.setF_y (v : Byte) : (s.setF v).y = s.y := rfl
@[simp] theorem State.setF_sp (v : Byte) : (s.setF v).sp = s.sp := rfl
@[simp] theorem State.setF_pc (v : Byte) : (s.setF v).pc = s.pc := rfl
@[simp] theorem State.setF_f (v : Byte) : (s.setF v).f = v := rfl
@[simp] theorem State.setF_tickcount (v : Byte) : (s.setF v).tickcount = s.tickcount := rfl
@[simp] theorem State.setF_waitingForNmi (v : Byte) : (s.setF v).waitingForNmi = s.waitingForNmi := rfl
@[simp] theorem State.setF_waitingForIrq (v : Byte) : (s.setF v).waitingForIrq = s.waitingForIrq := rfl
@[simp] theorem State.setF_status (v : Byte) : (s.setF v).status = s.status := rfl
@[simp] theorem State.setF_mem (v : Byte) : (s.setF v).mem = s.mem := rfl
@[simp] theorem State.setF_cfg (v : Byte) : (s.setF v).cfg = s.cfg := rfl
@[simp] theorem State.setF_hookCalls (v : Byte) : (s.setF v).hookCalls = s.hookCalls := rfl

@[simp] theorem State.setMem_a (m : Memory) : (s.setMem m).a = s.a := rfl
@[simp] theorem State.setMem_x (m : Memory) : (s.setMem m).x = s.x := rfl
@[simp] theorem State.setMem_y (m : Memory) : (s.setMem m).y = s.y := rfl
@[simp] theorem State.setMem_sp (m : Memory) : (s.setMem m).sp = s.sp := rfl
@[simp] theorem State.setMem_pc (m : Memory) : (s.setMem m).pc = s.pc := rfl
@[simp] theorem State.setMem_f (m : Memory) : (s.setMem m).f = s.f := rfl
@[simp] theorem State.setMem_tickcount (m : Memory) : (s.setMem m).tickcount = s.tickcount := rfl
@[simp] theorem State.setMem_waitingForNmi (m : Memory) : (s.setMem m).waitingForNmi = s.waitingForNmi := rfl
@[simp] theorem State.setMem_waitingForIrq (m : Memory) : (s.setMem m).waitingForIrq = s.waitingForIrq := rfl
@[simp] theorem State.setMem_status (m : Memory) : (s.setMem m).status = s.status := rfl
@[simp] theorem State.setMem_mem (m : Memory) : (s.setMem m).mem = m := rfl
@[simp] theorem State.setMem_cfg (m : Memory) : (s.setMem m).cfg = s.cfg := rfl
@[simp] theorem State.setMem_hookCalls (m : Memory) : (s.setMem m).hookCalls = s.hookCalls := rfl

@[simp] theorem State.setStatus_a (st : Status) : (s.setStatus st).a = s.a := rfl
@[simp] theorem State.setStatus_x (st : Status) : (s.setStatus st).x = s.x := rfl
@[simp] theorem State.setStatus_y (st : Status) : (s.setStatus st).y = s.y := rfl
@[simp] theorem State.setStatus_sp (st : Status) : (s.setStatus st).sp = s.sp := rfl
@[simp] theorem State.setStatus_pc (st : Status) : (s.setStatus st).pc = s.pc := rfl
@[simp] theorem State.setStatus_f (st : Status) : (s.setStatus st).f = s.f := rfl
@[simp] theorem State.setStatus_tickcount (st : Status) : (s.setStatus st).tickcount = s.tickcount := rfl
@[simp] theorem State.setStatus_waitingForNmi (st : Status) : (s.setStatus st).waitingForNmi = s.waitingForNmi := rfl
@[simp] theorem State.setStatus_waitingForIrq (st : Status) : (s.setStatus st).waitingForIrq = s.waitingForIrq := rfl
@[simp] theorem State.setStatus_status (st : Status) : (s.setStatus st).status = st := rfl
@[simp] theorem State.setStatus_mem (st : Status) : (s.setStatus st).mem = s.mem := rfl
@[simp] theorem State.setStatus_cfg (st : Status) : (s.setStatus st).cfg = s.cfg := rfl
@[simp] theorem State.setStatus_hookCalls (st : Status) : (s.setStatus st).hookCalls = s.hookCalls := rfl

@[simp] theorem State.setHookCalls_a (n : Nat) : (s.setHookCalls n).a = s.a := rfl
@[simp] theorem State.setHookCalls_x (n : Nat) : (s.setHookCalls n).x = s.x := rfl
@[simp] theorem State.setHookCalls_y (n : Nat) : (s.setHookCalls n).y = s.y := rfl
@[simp] theorem State.setHookCalls_sp (n : Nat) : (s.setHookCalls n).sp = s.sp := rfl
@[simp] theorem State.setHookCalls_pc (n : Nat) : (s.setHookCalls n).pc = s.pc := rfl
@[simp] theorem State.setHookCalls_f (n : Nat) : (s.setHookCalls n).f = s.f := rfl
@[simp] theorem State.setHookCalls_tickcount (n : Nat) : (s.setHookCalls n).tickcount = s.tickcount := rfl
@[simp] theorem State.setHookCalls_waitingForNmi (n : Nat) : (s.setHookCalls n).waitingForNmi = s.waitingForNmi := rfl
@[simp] theorem State.setHookCalls_waitingForIrq (n : Nat) : (s.setHookCalls n).waitingForIrq = s.waitingForIrq := rfl
@[simp] theorem State.setHookCalls_status (n : Nat) : (s.setHookCalls n).status = s.status := rfl
@[simp] theorem State.setHookCalls_mem (n : Nat) : (s.setHookCalls n).mem = s.mem := rfl
@[simp] theorem State.setHookCalls_cfg (n : Nat) : (s.setHookCalls n).cfg = s.cfg := rfl
@[simp] theorem State.setHookCalls_hookCalls (n : Nat) : (s.setHookCalls n).hookCalls = n := rfl

@[simp] theorem State.addTicks_a (n : Nat) : (s.addTicks n).a = s.a := rfl
@[simp] theorem State.addTicks_x (n : Nat) : (s.addTicks n).x = s.x := rfl
@[simp] theorem State.addTicks_y (n : Nat) : (s.addTicks n).y = s.y := rfl
@[simp] theorem State.addTicks_sp (n : Nat) : (s.addTicks n).sp = s.sp := rfl
@[simp] theorem State.addTicks_pc (n : Nat) : (s.addTicks n).pc = s.pc := rfl
@[simp] theorem State.addTicks_f (n : Nat) : (s.addTicks n).f = s.f := rfl
@[simp] theorem State.addTicks_tickcount (n : Nat) : (s.addTicks n).tickcount = s.tickcount + n := rfl
@[simp] theorem State.addTicks_waitingForNmi (n : Nat) : (s.addTicks n).waitingForNmi = s.waitingForNmi := rfl
@[simp] theorem State.addTicks_waitingForIrq (n : Nat) : (s.addTicks n).waitingForIrq = s.waitingForIrq := rfl
@[simp] theorem State.addTicks_status (n : Nat) : (s.addTicks n).status = s.status := rfl
@[simp] theorem State.addTicks_mem (n : Nat) : (s.addTicks n).mem = s.mem := rfl
@[simp] theorem State.addTicks_cfg (n : Nat) : (s.addTicks n).cfg = s.cfg := rfl
@[simp] theorem State.addTicks_hookCalls (n : Nat) : (s.addTicks n).hookCalls = s.hookCalls := rfl

/-! The updates by the name of a register. -/

@[simp] theorem State.setReg_pc (r : Reg) (v : Byte) : (s.setReg r v).pc = s.pc := by cases r <;> rfl
@[simp] theorem State.setReg_f (r : Reg) (v : Byte) : (s.setReg r v).f = s.f := by cases r <;> rfl
@[simp] theorem State.setReg_tickcount (r : Reg) (v : Byte) : (s.setReg r v).tickcount = s.tickcount := by cases r <;> rfl
@[simp] theorem State.setReg_waitingForNmi (r : Reg) (v : Byte) : (s.setReg r v).waitingForNmi = s.waitingForNmi := by cases r <;> rfl
@[simp] theorem State.setReg_waitingForIrq (r : Reg) (v : Byte) : (s.setReg r v).waitingForIrq = s.waitingForIrq := by cases r <;> rfl
@[simp] theorem State.setReg_status (r : Reg) (v : Byte) : (s.setReg r v).status = s.status := by cases r <;> rfl
@[simp] theorem State.setReg_mem (r : Reg) (v : Byte) : (s.setReg r v).mem = s.mem := by cases r <;> rfl
@[simp] theorem State.setReg_cfg (r : Reg) (v : Byte) : (s.setReg r v).cfg = s.cfg := by cases r <;> rfl
@[simp] theorem State.setReg_hookCalls (r : Reg) (v : Byte) : (s.setReg r v).hookCalls = s.hookCalls := by cases r <;> rfl

theorem State.reg_setReg (r r' : Reg) (v : Byte) : (s.setReg r v).reg r' = if r' = r then v else s.reg r' := by
  cases r <;> cases r' <;> rfl

@[simp] theorem State.reg_setReg_self (r : Reg) (v : Byte) : (s.setReg r v).reg r = v := by cases r <;> rfl

@[simp] theorem State.setPc_reg (w : Word) (r : Reg) : (s.setPc w).reg r = s.reg r := by cases r <;> rfl
@[simp] theorem State.setF_reg (v : Byte) (r : Reg) : (s.setF v).reg r = s.reg r := by cases r <;> rfl
@[simp] theorem State.setMem_reg (m : Memory) (r : Reg) : (s.setMem m).reg r = s.reg r := by cases r <;> rfl
@[simp] theorem State.setStatus_reg (st : Status) (r : Reg) : (s.setStatus st).reg r = s.reg r := by cases r <;> rfl
@[simp] theorem State.setHookCalls_reg (n : Nat) (r : Reg) : (s.setHookCalls n).reg r = s.reg r := by cases r <;> rfl
@[simp] theorem State.addTicks_reg (n : Nat) (r : Reg) : (s.addTicks n).reg r = s.reg r := by cases r <;> rfl

/-! The updates of F. -/

@[simp] theorem State.putFlag_eq (fl : Flag) (b : Bool) : s.putFlag fl b = s.setF (flagPut s.f fl b) := rfl
@[simp] theorem State.putNZ_eq (v : Byte) : s.putNZ v = s.setF (setNZ s.f v) := rfl
theorem State.flag_eq (fl : Flag) : s.flag fl = flagTest s.f fl := rfl
@[simp] theorem State.setF_flag (v : Byte) (fl : Flag) : (s.setF v).flag fl = flagTest v fl := rfl

/-! Bytes of memory. -/

@[simp] theorem State.setA_byteAt (v : Byte) (a : Word) : (s.setA v).byteAt a = s.byteAt a := rfl
@[simp] theorem State.setX_byteAt (v : Byte) (a : Word) : (s.setX v).byteAt a = s.byteAt a := rfl
@[simp] theorem State.setY_byteAt (v : Byte) (a : Word) : (s.setY v).byteAt a = s.byteAt a := rfl
@[simp] theorem State.setSp_byteAt (v : Byte) (a : Word) : (s.setSp v).byteAt a = s.byteAt a := rfl
@[simp] theorem State.setPc_byteAt (w : Word) (a : Word) : (s.setPc w).byteAt a = s.byteAt a := rfl
@[simp] theorem State.setF_byteAt (v : Byte) (a : Word) : (s.setF v).byteAt a = s.byteAt a := rfl
@[simp] theorem State.setStatus_byteAt (st : Status) (a : Word) : (s.setStatus st).byteAt a = s.byteAt a := rfl
@[simp] theorem State.setHookCalls_byteAt (n : Nat) (a : Word) : (s.setHookCalls n).byteAt a = s.byteAt a := rfl
@[simp] theorem State.addTicks_byteAt (n : Nat) (a : Word) : (s.addTicks n).byteAt a = s.byteAt a := rfl
@[simp] theorem State.setReg_byteAt (r : Reg) (v : Byte) (a : Word) : (s.setReg r v).byteAt a = s.byteAt a := by cases r <;> rfl
@[simp] theorem State.setByte_a (a : Word) (v : Byte) : (s.setByte a v).a = s.a := rfl
@[simp] theorem State.setByte_x (a : Word) (v : Byte) : (s.setByte a v).x = s.x := rfl
@[simp] theorem State.setByte_y (a : Word) (v : Byte) : (s.setByte a v).y = s.y := rfl
@[simp] theorem State.setByte_sp (a : Word) (v : Byte) : (s.setByte a v).sp = s.sp := rfl
@[simp] theorem State.setByte_pc (a : Word) (v : Byte) : (s.setByte a v).pc = s.pc := rfl
@[simp] theorem State.setByte_f (a : Word) (v : Byte) : (s.setByte a v).f = s.f := rfl
@[simp] theorem State.setByte_tickcount (a : Word) (v : Byte) : (s.setByte a v).tickcount = s.tickcount := rfl
@[simp] theorem State.setByte_waitingForNmi (a : Word) (v : Byte) : (s.setByte a v).waitingForNmi = s.waitingForNmi := rfl
@[simp] theorem State.setByte_waitingForIrq (a : Word) (v : Byte) : (s.setByte a v).waitingForIrq = s.waitingForIrq := rfl
@[simp] theorem State.setByte_status (a : Word) (v : Byte) : (s.setByte a v).status = s.status := rfl
@[simp] theorem State.setByte_cfg (a : Word) (v : Byte) : (s.setByte a v).cfg = s.cfg := rfl
@[simp] theorem State.setByte_hookCalls (a : Word) (v : Byte) : (s.setByte a v).hookCalls = s.hookCalls := rfl

/-! Updates of different fields commute, and a later update of a field replaces an earlier one. -/

@[simp] theorem State.setHookCalls_setHookCalls (m n : Nat) : (s.setHookCalls m).setHookCalls n = s.setHookCalls n := rfl
@[simp] theorem State.setHookCalls_self : s.setHookCalls s.hookCalls = s := rfl

end Sys2Proof.Machine
end

