-- ==== Sys2Proof/Laws/Ops.lean ====
section
/-!
SUPPORT. What each shared operation of Machine/Ops.lean can do, once: a read changes the count of hook calls and nothing else, a
write changes one byte and that count.
-/
namespace Sys2Proof.Machine

variable (s : State)

/-! ### Reads -/

theorem memRead_untrapped {a : Word} (h : trapsRead s.cfg a = false) :
    memRead s a = { value := s.byteAt a, state := s } := by
  simp [memRead, h]

theorem memRead_trapped {a : Word} (h : trapsRead s.cfg a = true) :
    memRead s a = { value := (Config.readHook s.hookCalls a).getD (s.byteAt a),
                    state := s.setHookCalls (s.hookCalls + 1) } := by
  simp [memRead, h]

/-- A read leaves everything but the count of hook calls, which does not fall. -/
theorem memRead_state (a : Word) : ∃ n, (memRead s a).state = s.setHookCalls n ∧ s.hookCalls ≤ n := by
  unfold memRead
  split
  · exact ⟨_, rfl, Nat.le_succ _⟩
  · exact ⟨s.hookCalls, rfl, Nat.le_refl _⟩

theorem readPair_untrapped {lo hi : Word} (hl : trapsRead s.cfg lo = false) (hh : trapsRead s.cfg hi = false) :
    readPair s lo hi = { value := mkWord (s.byteAt hi) (s.byteAt lo), state := s } := by
  simp [readPair, memRead_untrapped, hl, hh]

theorem readPair_state (lo hi : Word) : ∃ n, (readPair s lo hi).state = s.setHookCalls n ∧ s.hookCalls ≤ n := by
  obtain ⟨m, hm, hle⟩ := memRead_state s lo
  obtain ⟨n, hn, hle'⟩ := memRead_state (memRead s lo).state hi
  refine ⟨n, ?_, ?_⟩
  · show (memRead (memRead s lo).state hi).state = _
    rw [hn, hm]; rfl
  · rw [hm] at hle'; exact Nat.le_trans hle hle'

theorem readWord_state (a : Word) : ∃ n, (readWord s a).state = s.setHookCalls n ∧ s.hookCalls ≤ n :=
  readPair_state s _ _

theorem readWordZP_state (z : Byte) : ∃ n, (readWordZP s z).state = s.setHookCalls n ∧ s.hookCalls ≤ n :=
  readPair_state s _ _

/-! ### Writes -/

theorem memWrite_untrapped {a : Word} {v : Byte} (h : trapsWrite s.cfg a = false) :
    memWrite s a v = s.setByte a v := by
  simp [memWrite, h]

/-- A write stores one byte at its address: the byte given, or what the write hook answers. -/
theorem memWrite_eq (a : Word) (v : Byte) :
    ∃ v' n, memWrite s a v = (s.setByte a v').setHookCalls n ∧ s.hookCalls ≤ n ∧
      (trapsWrite s.cfg a = false → v' = v) := by
  unfold memWrite
  split
  · exact ⟨_, _, rfl, Nat.le_succ _, fun h => by simp_all⟩
  · exact ⟨v, s.hookCalls, rfl, Nat.le_refl _, fun _ => rfl⟩

/-- Every byte but the one addressed reads as before. -/
theorem memWrite_byteAt_ne {a b : Word} (v : Byte) (h : b ≠ a) : (memWrite s a v).byteAt b = s.byteAt b := by
  obtain ⟨v', n, heq, -, -⟩ := memWrite_eq s a v
  rw [heq, State.setHookCalls_byteAt, State.setByte_byteAt, if_neg h]

theorem memWrite_wf {s : State} (h : s.mem.wf = true) (a : Word) (v : Byte) : (memWrite s a v).mem.wf = true := by
  obtain ⟨v', n, heq, -, -⟩ := memWrite_eq s a v
  rw [heq]; exact State.setByte_wf h a v'

theorem writeWord_wf {s : State} (h : s.mem.wf = true) (a w : Word) : (writeWord s a w).mem.wf = true :=
  memWrite_wf (memWrite_wf h _ _) _ _

/-! ### The stack -/

/-- A push stores one byte at the stack address and moves SP down. -/
theorem push8_eq (v : Byte) :
    ∃ v' n, push8 s v = ((s.setByte (stackAddr s.sp) v').setHookCalls n).setSp (s.sp - 1#8) ∧ s.hookCalls ≤ n ∧
      (trapsWrite s.cfg (stackAddr s.sp) = false → v' = v) := by
  obtain ⟨v', n, heq, hle, hv⟩ := memWrite_eq s (stackAddr s.sp) v
  refine ⟨v', n, ?_, hle, hv⟩
  simp only [push8, heq]; rfl

@[simp] theorem push8_sp (v : Byte) : (push8 s v).sp = s.sp - 1#8 := by
  obtain ⟨_, _, h, -⟩ := push8_eq s v
  rw [h]; rfl

@[simp] theorem push8_cfg (v : Byte) : (push8 s v).cfg = s.cfg := by
  obtain ⟨_, _, h, -⟩ := push8_eq s v
  rw [h]; rfl

theorem push8_wf {s : State} (h : s.mem.wf = true) (v : Byte) : (push8 s v).mem.wf = true :=
  memWrite_wf h _ _

theorem push16_wf {s : State} (h : s.mem.wf = true) (w : Word) : (push16 s w).mem.wf = true :=
  push8_wf (push8_wf h _) _

/-- A 16-bit push stores two bytes, the high one first, and moves SP down by 2. -/
theorem push16_eq (w : Word) :
    ∃ vh vl n, push16 s w =
        ((((s.setByte (stackAddr s.sp) vh).setByte (stackAddr (s.sp - 1#8)) vl).setHookCalls n).setSp (s.sp - 1#8 - 1#8)) ∧
      s.hookCalls ≤ n := by
  obtain ⟨vh, m, hm, hle, -⟩ := push8_eq s (hi8 w)
  obtain ⟨vl, n, hn, hle', -⟩ := push8_eq (push8 s (hi8 w)) (lo8 w)
  refine ⟨vh, vl, n, ?_, ?_⟩
  · show push8 (push8 s (hi8 w)) (lo8 w) = _
    rw [hn, hm]; rfl
  · rw [hm] at hle'; exact Nat.le_trans hle hle'

/-- A pop moves SP up and reads. -/
theorem pop8_state : ∃ n, (pop8 s).state = (s.setSp (s.sp + 1#8)).setHookCalls n ∧ s.hookCalls ≤ n :=
  memRead_state (s.setSp (s.sp + 1#8)) _

theorem pop8_untrapped (h : trapsRead s.cfg (stackAddr (s.sp + 1#8)) = false) :
    pop8 s = { value := s.byteAt (stackAddr (s.sp + 1#8)), state := s.setSp (s.sp + 1#8) } :=
  memRead_untrapped (s.setSp (s.sp + 1#8)) h

theorem pop16_state : ∃ n, (pop16 s).state = (s.setSp (s.sp + 1#8 + 1#8)).setHookCalls n ∧ s.hookCalls ≤ n := by
  obtain ⟨m, hm, hle⟩ := pop8_state s
  obtain ⟨n, hn, hle'⟩ := pop8_state (pop8 s).state
  refine ⟨n, ?_, ?_⟩
  · show (pop8 (pop8 s).state).state = _
    rw [hn, hm]; rfl
  · rw [hm] at hle'; exact Nat.le_trans hle hle'

/-! ### Cycles and exceptions -/

theorem pagePenalty_le_one (c : Config) (k : Access) (crossed : Bool) : pagePenalty c k crossed ≤ 1 := by
  unfold pagePenalty; split <;> omega

@[simp] theorem pagePenalty_false (c : Config) (k : Access) : pagePenalty c k false = 0 := by
  cases k <;> cases h : c.penaltyScope <;> simp [pagePenalty]

@[simp] theorem pagePenalty_reads (c : Config) (crossed : Bool) : pagePenalty c .reads crossed = if crossed then 1 else 0 := by
  cases crossed <;> cases h : c.penaltyScope <;> simp [pagePenalty]

theorem pagePenalty_readsOnly_stores {c : Config} (h : c.penaltyScope = .readsOnly) (crossed : Bool) :
    pagePenalty c .stores crossed = 0 := by
  cases crossed <;> simp [pagePenalty, h]

/-- Trap entry stores three bytes on the stack, sets F.I, moves SP down by 3 and loads PC. -/
theorem trapEntry_eq (ret vector : Word) :
    ∃ v1 v2 v3 n pc, trapEntry s ret vector =
      ((((((s.setByte (stackAddr s.sp) v1).setByte (stackAddr (s.sp - 1#8)) v2).setByte (stackAddr (s.sp - 1#8 - 1#8)) v3).setHookCalls
        n).setSp (s.sp - 1#8 - 1#8 - 1#8)).setF (flagSet s.f .i)).setPc pc ∧ s.hookCalls ≤ n := by
  obtain ⟨v1, v2, m, hm, hle⟩ := push16_eq s ret
  obtain ⟨v3, k, hk, hle', -⟩ := push8_eq (push16 s ret) (pushedFlags s.f)
  generalize hp : push8 (push16 s ret) (pushedFlags s.f) = p at hk
  obtain ⟨n, hn, hle''⟩ := readWord_state (p.putFlag .i true) vector
  refine ⟨v1, v2, v3, n, (readWord (p.putFlag .i true) vector).value, ?_, ?_⟩
  · simp only [trapEntry, hp]
    rw [hn]
    generalize (readWord (p.putFlag .i true) vector).value = pc
    rw [hk, hm]
    simp only [State.putFlag, flagSet_eq_put, State.setPc, State.setF, State.setSp, State.setHookCalls, State.setByte,
      State.setMem]
  · rw [hm] at hle'
    rw [hk, hm] at hle''
    exact Nat.le_trans hle (Nat.le_trans hle' hle'')

theorem trapEntry_wf {s : State} (h : s.mem.wf = true) (ret vector : Word) : (trapEntry s ret vector).mem.wf = true := by
  obtain ⟨v1, v2, v3, n, pc, heq, -⟩ := trapEntry_eq s ret vector
  rw [heq, State.setPc_mem, State.setF_mem, State.setSp_mem, State.setHookCalls_mem]
  exact State.setByte_wf (State.setByte_wf (State.setByte_wf h _ _) _ _) _ _

/-- Popping F moves SP up by 1 and loads F with bit 4 clear and bit 5 set. -/
theorem pullFlags_eq : ∃ v n, pullFlags s = ((s.setSp (s.sp + 1#8)).setHookCalls n).setF (pulledFlags v) ∧ s.hookCalls ≤ n := by
  obtain ⟨n, hn, hle⟩ := pop8_state s
  refine ⟨(pop8 s).value, n, ?_, hle⟩
  simp only [pullFlags, hn]

/-- Trap return pops F and then PC, and moves SP up by 3. -/
theorem trapReturn_eq :
    ∃ v n pc, trapReturn s =
      (((s.setSp (s.sp + 1#8 + 1#8 + 1#8)).setHookCalls n).setF (pulledFlags v)).setPc pc ∧ s.hookCalls ≤ n := by
  obtain ⟨v, m, hm, hle⟩ := pullFlags_eq s
  generalize hp : pullFlags s = p at hm
  obtain ⟨n, hn, hle'⟩ := pop16_state p
  refine ⟨v, n, (pop16 p).value, ?_, ?_⟩
  · simp only [trapReturn, hp]
    rw [hn]
    generalize (pop16 p).value = pc
    rw [hm]
    simp only [State.setPc, State.setF, State.setSp, State.setHookCalls]
  · rw [hm] at hle'
    exact Nat.le_trans hle hle'

end Sys2Proof.Machine
end

