-- ==== Sys2Proof/Laws/Operands.lean ====
section
/-!
SUPPORT. What each shared operation of Machine/Operands.lean can do, once: its result as named updates of the state it began in.
-/
namespace Sys2Proof.Machine

variable (s : State)

/-- Resolving an operand leaves everything but the count of hook calls. -/
theorem resolveEa_state (m : EaMode) : ∃ n, (resolveEa s m).state = s.setHookCalls n ∧ s.hookCalls ≤ n := by
  cases m with
  | indX z => exact readWordZP_state s _
  | indY z => exact readWordZP_state s _
  | _ => exact ⟨s.hookCalls, rfl, Nat.le_refl _⟩

theorem resolveIndirect_state (p : Word) : ∃ n, (resolveIndirect s p).state = s.setHookCalls n ∧ s.hookCalls ≤ n :=
  readPair_state s _ _

/-- Only the three modes of 40_execution.md R101 can cross a page. -/
theorem resolveEa_crossed (m : EaMode) (h : (resolveEa s m).crossed = true) :
    (∃ w, m = .absX w) ∨ (∃ w, m = .absY w) ∨ (∃ z, m = .indY z) := by
  cases m with
  | absX w => exact .inl ⟨w, rfl⟩
  | absY w => exact .inr (.inl ⟨w, rfl⟩)
  | indY z => exact .inr (.inr ⟨z, rfl⟩)
  | _ => exact absurd h (by simp [resolveEa])

/-- Loading an operand leaves everything but the count of hook calls. -/
theorem loadSource_state (src : Source) : ∃ n, (loadSource s src).state = s.setHookCalls n ∧ s.hookCalls ≤ n := by
  cases src with
  | imm v => exact ⟨s.hookCalls, rfl, Nat.le_refl _⟩
  | mem m =>
    obtain ⟨k, hk, hle⟩ := resolveEa_state s m
    obtain ⟨n, hn, hle'⟩ := memRead_state (resolveEa s m).state (resolveEa s m).ea
    rw [hk] at hle'
    refine ⟨n, ?_, Nat.le_trans hle hle'⟩
    show (memRead (resolveEa s m).state (resolveEa s m).ea).state = _
    rw [hn, hk]; rfl

theorem loadReg_eq (r : Reg) (src : Source) (base : Nat) :
    ∃ n, loadReg r src base s =
      ((((s.setHookCalls n).setReg r (loadSource s src).value).setF (setNZ s.f (loadSource s src).value)).addTicks
        (base + pagePenalty s.cfg .reads (loadSource s src).crossed)) := by
  obtain ⟨n, hn, -⟩ := loadSource_state s src
  exact ⟨n, by simp [loadReg, hn]⟩

theorem storeReg_eq (r : Reg) (m : EaMode) (base : Nat) :
    ∃ v n, storeReg r m base s =
      (((s.setByte (resolveEa s m).ea v).setHookCalls n).addTicks (base + pagePenalty s.cfg .stores (resolveEa s m).crossed)) ∧
      (trapsWrite s.cfg (resolveEa s m).ea = false → v = s.reg r) := by
  obtain ⟨k, hk, -⟩ := resolveEa_state s m
  obtain ⟨v, n, hn, -, hv⟩ := memWrite_eq (resolveEa s m).state (resolveEa s m).ea (s.reg r)
  rw [hk] at hv
  refine ⟨v, n, ?_, hv⟩
  simp only [storeReg, hn]
  rw [hk]; rfl

theorem stepAt_eq (op : Byte → Byte) (m : EaMode) (base : Nat) :
    let r := op (memRead (resolveEa s m).state (resolveEa s m).ea).value
    ∃ v n, stepAt op m base s =
      ((((s.setByte (resolveEa s m).ea v).setHookCalls n).setF (setNZ s.f r)).addTicks
        (base + pagePenalty s.cfg .stores (resolveEa s m).crossed)) ∧
      (trapsWrite s.cfg (resolveEa s m).ea = false → v = r) := by
  intro r
  obtain ⟨k, hk, -⟩ := resolveEa_state s m
  obtain ⟨j, hj, -⟩ := memRead_state (resolveEa s m).state (resolveEa s m).ea
  obtain ⟨v, n, hn, -, hv⟩ := memWrite_eq (memRead (resolveEa s m).state (resolveEa s m).ea).state (resolveEa s m).ea r
  rw [hj, hk] at hv
  refine ⟨v, n, ?_, hv⟩
  simp only [stepAt]
  rw [show op (memRead (resolveEa s m).state (resolveEa s m).ea).value = r from rfl, hn, hj, hk]
  rfl

theorem shiftAt_acc (op : Byte → Bool → CarryResult) (base : Nat) :
    shiftAt op .acc base s =
      ((s.setA (op s.a (s.flag .c)).value).setF
        (setNZ (flagPut s.f .c (op s.a (s.flag .c)).carry) (op s.a (s.flag .c)).value)).addTicks base := rfl

theorem shiftAt_mem (op : Byte → Bool → CarryResult) (m : EaMode) (base : Nat) :
    let r := op (memRead (resolveEa s m).state (resolveEa s m).ea).value (s.flag .c)
    ∃ v n, shiftAt op (.mem m) base s =
      ((((s.setByte (resolveEa s m).ea v).setHookCalls n).setF (setNZ (flagPut s.f .c r.carry) r.value)).addTicks
        (base + pagePenalty s.cfg .stores (resolveEa s m).crossed)) ∧
      (trapsWrite s.cfg (resolveEa s m).ea = false → v = r.value) := by
  intro r
  obtain ⟨k, hk, -⟩ := resolveEa_state s m
  obtain ⟨j, hj, -⟩ := memRead_state (resolveEa s m).state (resolveEa s m).ea
  obtain ⟨v, n, hn, -, hv⟩ := memWrite_eq (memRead (resolveEa s m).state (resolveEa s m).ea).state (resolveEa s m).ea r.value
  rw [hj, hk] at hv
  refine ⟨v, n, ?_, hv⟩
  simp only [shiftAt]
  rw [show op (memRead (resolveEa s m).state (resolveEa s m).ea).value (s.flag .c) = r from rfl, hn, hj, hk]
  rfl

theorem logicA_eq (op : Byte → Byte → Byte) (src : Source) (base : Nat) :
    ∃ n, logicA op src base s =
      ((((s.setHookCalls n).setA (op s.a (loadSource s src).value)).setF (setNZ s.f (op s.a (loadSource s src).value))).addTicks
        (base + pagePenalty s.cfg .reads (loadSource s src).crossed)) := by
  obtain ⟨n, hn, -⟩ := loadSource_state s src
  exact ⟨n, by simp [logicA, hn]⟩

theorem compareReg_eq (r : Reg) (src : Source) (base : Nat) :
    ∃ n, compareReg r src base s =
      (((s.setHookCalls n).setF (compareFlags s.f (s.reg r) (loadSource s src).value)).addTicks
        (base + pagePenalty s.cfg .reads (loadSource s src).crossed)) := by
  obtain ⟨n, hn, -⟩ := loadSource_state s src
  exact ⟨n, by simp [compareReg, hn]⟩

theorem bitTest_eq (m : EaMode) (base : Nat) :
    ∃ n, bitTest m base s =
      (((s.setHookCalls n).setF (bitTestFlags s.f s.a (loadSource s (.mem m)).value)).addTicks
        (base + pagePenalty s.cfg .reads (loadSource s (.mem m)).crossed)) := by
  obtain ⟨n, hn, -⟩ := loadSource_state s (.mem m)
  exact ⟨n, by simp [bitTest, hn]⟩

theorem putSum_eq (r : CarryResult) (v : Bool) :
    putSum s r v = (s.setA r.value).setF (setNZ (flagPut (flagPut s.f .v v) .c r.carry) r.value) := rfl

/-- In binary mode (41_alu.md R115). -/
theorem addSub_binary (op : DecimalOp) (bin : Byte → Byte → Bool → BinaryResult) (dec : Byte → Byte → Bool → CarryResult)
    (src : Source) (base : Nat) (h : s.flag .d = false) :
    let r := bin s.a (loadSource s src).value (s.flag .c)
    ∃ n, addSub op bin dec src base s =
      ((((s.setHookCalls n).setA r.value).setF
        (setNZ (flagPut (flagPut s.f .v r.overflow) .c r.carry) r.value)).addTicks
        (base + pagePenalty s.cfg .reads (loadSource s src).crossed)) := by
  obtain ⟨n, hn, -⟩ := loadSource_state s src
  exact ⟨n, by simp [addSub, putSum_eq, h, hn]⟩

/-- In decimal mode (41_alu.md R114, R115): V is the free value of P5. -/
theorem addSub_decimal (op : DecimalOp) (bin : Byte → Byte → Bool → BinaryResult) (dec : Byte → Byte → Bool → CarryResult)
    (src : Source) (base : Nat) (h : s.flag .d = true) :
    let r := dec s.a (loadSource s src).value (s.flag .c)
    ∃ n, addSub op bin dec src base s =
      ((((s.setHookCalls n).setA r.value).setF
        (setNZ (flagPut (flagPut s.f .v (Config.decimalV op s.a (loadSource s src).value (s.flag .c) (s.flag .v))) .c r.carry)
          r.value)).addTicks
        (base + pagePenalty s.cfg .reads (loadSource s src).crossed)) := by
  obtain ⟨n, hn, -⟩ := loadSource_state s src
  exact ⟨n, by simp [addSub, putSum_eq, h, hn]⟩

end Sys2Proof.Machine
end

