-- ==== Sys2Proof/Laws/Fields.lean ====
section
/-!
SUPPORT. Field by field, what a shared access leaves as it was: a read (MemRead, a word, an operand) leaves every field but the
count of hook calls, a write every field but memory and that count, a push or a pop also moves SP.
-/
namespace Sys2Proof.Machine

variable (s : State)

@[simp] theorem memRead_a (a : Word) : (memRead s a).state.a = s.a := by
  obtain ⟨_, h, -⟩ := memRead_state s a
  rw [h]; rfl
@[simp] theorem memRead_x (a : Word) : (memRead s a).state.x = s.x := by
  obtain ⟨_, h, -⟩ := memRead_state s a
  rw [h]; rfl
@[simp] theorem memRead_y (a : Word) : (memRead s a).state.y = s.y := by
  obtain ⟨_, h, -⟩ := memRead_state s a
  rw [h]; rfl
@[simp] theorem memRead_sp (a : Word) : (memRead s a).state.sp = s.sp := by
  obtain ⟨_, h, -⟩ := memRead_state s a
  rw [h]; rfl
@[simp] theorem memRead_pc (a : Word) : (memRead s a).state.pc = s.pc := by
  obtain ⟨_, h, -⟩ := memRead_state s a
  rw [h]; rfl
@[simp] theorem memRead_f (a : Word) : (memRead s a).state.f = s.f := by
  obtain ⟨_, h, -⟩ := memRead_state s a
  rw [h]; rfl
@[simp] theorem memRead_tickcount (a : Word) : (memRead s a).state.tickcount = s.tickcount := by
  obtain ⟨_, h, -⟩ := memRead_state s a
  rw [h]; rfl
@[simp] theorem memRead_waitingForNmi (a : Word) : (memRead s a).state.waitingForNmi = s.waitingForNmi := by
  obtain ⟨_, h, -⟩ := memRead_state s a
  rw [h]; rfl
@[simp] theorem memRead_waitingForIrq (a : Word) : (memRead s a).state.waitingForIrq = s.waitingForIrq := by
  obtain ⟨_, h, -⟩ := memRead_state s a
  rw [h]; rfl
@[simp] theorem memRead_status (a : Word) : (memRead s a).state.status = s.status := by
  obtain ⟨_, h, -⟩ := memRead_state s a
  rw [h]; rfl
@[simp] theorem memRead_mem (a : Word) : (memRead s a).state.mem = s.mem := by
  obtain ⟨_, h, -⟩ := memRead_state s a
  rw [h]; rfl
@[simp] theorem memRead_cfg (a : Word) : (memRead s a).state.cfg = s.cfg := by
  obtain ⟨_, h, -⟩ := memRead_state s a
  rw [h]; rfl
@[simp] theorem memRead_byteAt (a : Word) (b : Word) : (memRead s a).state.byteAt b = s.byteAt b := by
  obtain ⟨_, h, -⟩ := memRead_state s a
  rw [h]; rfl

@[simp] theorem readPair_a (lo hi : Word) : (readPair s lo hi).state.a = s.a := by
  obtain ⟨_, h, -⟩ := readPair_state s lo hi
  rw [h]; rfl
@[simp] theorem readPair_x (lo hi : Word) : (readPair s lo hi).state.x = s.x := by
  obtain ⟨_, h, -⟩ := readPair_state s lo hi
  rw [h]; rfl
@[simp] theorem readPair_y (lo hi : Word) : (readPair s lo hi).state.y = s.y := by
  obtain ⟨_, h, -⟩ := readPair_state s lo hi
  rw [h]; rfl
@[simp] theorem readPair_sp (lo hi : Word) : (readPair s lo hi).state.sp = s.sp := by
  obtain ⟨_, h, -⟩ := readPair_state s lo hi
  rw [h]; rfl
@[simp] theorem readPair_pc (lo hi : Word) : (readPair s lo hi).state.pc = s.pc := by
  obtain ⟨_, h, -⟩ := readPair_state s lo hi
  rw [h]; rfl
@[simp] theorem readPair_f (lo hi : Word) : (readPair s lo hi).state.f = s.f := by
  obtain ⟨_, h, -⟩ := readPair_state s lo hi
  rw [h]; rfl
@[simp] theorem readPair_tickcount (lo hi : Word) : (readPair s lo hi).state.tickcount = s.tickcount := by
  obtain ⟨_, h, -⟩ := readPair_state s lo hi
  rw [h]; rfl
@[simp] theorem readPair_waitingForNmi (lo hi : Word) : (readPair s lo hi).state.waitingForNmi = s.waitingForNmi := by
  obtain ⟨_, h, -⟩ := readPair_state s lo hi
  rw [h]; rfl
@[simp] theorem readPair_waitingForIrq (lo hi : Word) : (readPair s lo hi).state.waitingForIrq = s.waitingForIrq := by
  obtain ⟨_, h, -⟩ := readPair_state s lo hi
  rw [h]; rfl
@[simp] theorem readPair_status (lo hi : Word) : (readPair s lo hi).state.status = s.status := by
  obtain ⟨_, h, -⟩ := readPair_state s lo hi
  rw [h]; rfl
@[simp] theorem readPair_mem (lo hi : Word) : (readPair s lo hi).state.mem = s.mem := by
  obtain ⟨_, h, -⟩ := readPair_state s lo hi
  rw [h]; rfl
@[simp] theorem readPair_cfg (lo hi : Word) : (readPair s lo hi).state.cfg = s.cfg := by
  obtain ⟨_, h, -⟩ := readPair_state s lo hi
  rw [h]; rfl
@[simp] theorem readPair_byteAt (lo hi : Word) (b : Word) : (readPair s lo hi).state.byteAt b = s.byteAt b := by
  obtain ⟨_, h, -⟩ := readPair_state s lo hi
  rw [h]; rfl

@[simp] theorem readWord_a (a : Word) : (readWord s a).state.a = s.a := by
  obtain ⟨_, h, -⟩ := readWord_state s a
  rw [h]; rfl
@[simp] theorem readWord_x (a : Word) : (readWord s a).state.x = s.x := by
  obtain ⟨_, h, -⟩ := readWord_state s a
  rw [h]; rfl
@[simp] theorem readWord_y (a : Word) : (readWord s a).state.y = s.y := by
  obtain ⟨_, h, -⟩ := readWord_state s a
  rw [h]; rfl
@[simp] theorem readWord_sp (a : Word) : (readWord s a).state.sp = s.sp := by
  obtain ⟨_, h, -⟩ := readWord_state s a
  rw [h]; rfl
@[simp] theorem readWord_pc (a : Word) : (readWord s a).state.pc = s.pc := by
  obtain ⟨_, h, -⟩ := readWord_state s a
  rw [h]; rfl
@[simp] theorem readWord_f (a : Word) : (readWord s a).state.f = s.f := by
  obtain ⟨_, h, -⟩ := readWord_state s a
  rw [h]; rfl
@[simp] theorem readWord_tickcount (a : Word) : (readWord s a).state.tickcount = s.tickcount := by
  obtain ⟨_, h, -⟩ := readWord_state s a
  rw [h]; rfl
@[simp] theorem readWord_waitingForNmi (a : Word) : (readWord s a).state.waitingForNmi = s.waitingForNmi := by
  obtain ⟨_, h, -⟩ := readWord_state s a
  rw [h]; rfl
@[simp] theorem readWord_waitingForIrq (a : Word) : (readWord s a).state.waitingForIrq = s.waitingForIrq := by
  obtain ⟨_, h, -⟩ := readWord_state s a
  rw [h]; rfl
@[simp] theorem readWord_status (a : Word) : (readWord s a).state.status = s.status := by
  obtain ⟨_, h, -⟩ := readWord_state s a
  rw [h]; rfl
@[simp] theorem readWord_mem (a : Word) : (readWord s a).state.mem = s.mem := by
  obtain ⟨_, h, -⟩ := readWord_state s a
  rw [h]; rfl
@[simp] theorem readWord_cfg (a : Word) : (readWord s a).state.cfg = s.cfg := by
  obtain ⟨_, h, -⟩ := readWord_state s a
  rw [h]; rfl
@[simp] theorem readWord_byteAt (a : Word) (b : Word) : (readWord s a).state.byteAt b = s.byteAt b := by
  obtain ⟨_, h, -⟩ := readWord_state s a
  rw [h]; rfl

@[simp] theorem readWordZP_a (z : Byte) : (readWordZP s z).state.a = s.a := by
  obtain ⟨_, h, -⟩ := readWordZP_state s z
  rw [h]; rfl
@[simp] theorem readWordZP_x (z : Byte) : (readWordZP s z).state.x = s.x := by
  obtain ⟨_, h, -⟩ := readWordZP_state s z
  rw [h]; rfl
@[simp] theorem readWordZP_y (z : Byte) : (readWordZP s z).state.y = s.y := by
  obtain ⟨_, h, -⟩ := readWordZP_state s z
  rw [h]; rfl
@[simp] theorem readWordZP_sp (z : Byte) : (readWordZP s z).state.sp = s.sp := by
  obtain ⟨_, h, -⟩ := readWordZP_state s z
  rw [h]; rfl
@[simp] theorem readWordZP_pc (z : Byte) : (readWordZP s z).state.pc = s.pc := by
  obtain ⟨_, h, -⟩ := readWordZP_state s z
  rw [h]; rfl
@[simp] theorem readWordZP_f (z : Byte) : (readWordZP s z).state.f = s.f := by
  obtain ⟨_, h, -⟩ := readWordZP_state s z
  rw [h]; rfl
@[simp] theorem readWordZP_tickcount (z : Byte) : (readWordZP s z).state.tickcount = s.tickcount := by
  obtain ⟨_, h, -⟩ := readWordZP_state s z
  rw [h]; rfl
@[simp] theorem readWordZP_waitingForNmi (z : Byte) : (readWordZP s z).state.waitingForNmi = s.waitingForNmi := by
  obtain ⟨_, h, -⟩ := readWordZP_state s z
  rw [h]; rfl
@[simp] theorem readWordZP_waitingForIrq (z : Byte) : (readWordZP s z).state.waitingForIrq = s.waitingForIrq := by
  obtain ⟨_, h, -⟩ := readWordZP_state s z
  rw [h]; rfl
@[simp] theorem readWordZP_status (z : Byte) : (readWordZP s z).state.status = s.status := by
  obtain ⟨_, h, -⟩ := readWordZP_state s z
  rw [h]; rfl
@[simp] theorem readWordZP_mem (z : Byte) : (readWordZP s z).state.mem = s.mem := by
  obtain ⟨_, h, -⟩ := readWordZP_state s z
  rw [h]; rfl
@[simp] theorem readWordZP_cfg (z : Byte) : (readWordZP s z).state.cfg = s.cfg := by
  obtain ⟨_, h, -⟩ := readWordZP_state s z
  rw [h]; rfl
@[simp] theorem readWordZP_byteAt (z : Byte) (b : Word) : (readWordZP s z).state.byteAt b = s.byteAt b := by
  obtain ⟨_, h, -⟩ := readWordZP_state s z
  rw [h]; rfl

@[simp] theorem resolveEa_a (m : EaMode) : (resolveEa s m).state.a = s.a := by
  obtain ⟨_, h, -⟩ := resolveEa_state s m
  rw [h]; rfl
@[simp] theorem resolveEa_x (m : EaMode) : (resolveEa s m).state.x = s.x := by
  obtain ⟨_, h, -⟩ := resolveEa_state s m
  rw [h]; rfl
@[simp] theorem resolveEa_y (m : EaMode) : (resolveEa s m).state.y = s.y := by
  obtain ⟨_, h, -⟩ := resolveEa_state s m
  rw [h]; rfl
@[simp] theorem resolveEa_sp (m : EaMode) : (resolveEa s m).state.sp = s.sp := by
  obtain ⟨_, h, -⟩ := resolveEa_state s m
  rw [h]; rfl
@[simp] theorem resolveEa_pc (m : EaMode) : (resolveEa s m).state.pc = s.pc := by
  obtain ⟨_, h, -⟩ := resolveEa_state s m
  rw [h]; rfl
@[simp] theorem resolveEa_f (m : EaMode) : (resolveEa s m).state.f = s.f := by
  obtain ⟨_, h, -⟩ := resolveEa_state s m
  rw [h]; rfl
@[simp] theorem resolveEa_tickcount (m : EaMode) : (resolveEa s m).state.tickcount = s.tickcount := by
  obtain ⟨_, h, -⟩ := resolveEa_state s m
  rw [h]; rfl
@[simp] theorem resolveEa_waitingForNmi (m : EaMode) : (resolveEa s m).state.waitingForNmi = s.waitingForNmi := by
  obtain ⟨_, h, -⟩ := resolveEa_state s m
  rw [h]; rfl
@[simp] theorem resolveEa_waitingForIrq (m : EaMode) : (resolveEa s m).state.waitingForIrq = s.waitingForIrq := by
  obtain ⟨_, h, -⟩ := resolveEa_state s m
  rw [h]; rfl
@[simp] theorem resolveEa_status (m : EaMode) : (resolveEa s m).state.status = s.status := by
  obtain ⟨_, h, -⟩ := resolveEa_state s m
  rw [h]; rfl
@[simp] theorem resolveEa_mem (m : EaMode) : (resolveEa s m).state.mem = s.mem := by
  obtain ⟨_, h, -⟩ := resolveEa_state s m
  rw [h]; rfl
@[simp] theorem resolveEa_cfg (m : EaMode) : (resolveEa s m).state.cfg = s.cfg := by
  obtain ⟨_, h, -⟩ := resolveEa_state s m
  rw [h]; rfl
@[simp] theorem resolveEa_byteAt (m : EaMode) (b : Word) : (resolveEa s m).state.byteAt b = s.byteAt b := by
  obtain ⟨_, h, -⟩ := resolveEa_state s m
  rw [h]; rfl

@[simp] theorem resolveIndirect_a (p : Word) : (resolveIndirect s p).state.a = s.a := by
  obtain ⟨_, h, -⟩ := resolveIndirect_state s p
  rw [h]; rfl
@[simp] theorem resolveIndirect_x (p : Word) : (resolveIndirect s p).state.x = s.x := by
  obtain ⟨_, h, -⟩ := resolveIndirect_state s p
  rw [h]; rfl
@[simp] theorem resolveIndirect_y (p : Word) : (resolveIndirect s p).state.y = s.y := by
  obtain ⟨_, h, -⟩ := resolveIndirect_state s p
  rw [h]; rfl
@[simp] theorem resolveIndirect_sp (p : Word) : (resolveIndirect s p).state.sp = s.sp := by
  obtain ⟨_, h, -⟩ := resolveIndirect_state s p
  rw [h]; rfl
@[simp] theorem resolveIndirect_pc (p : Word) : (resolveIndirect s p).state.pc = s.pc := by
  obtain ⟨_, h, -⟩ := resolveIndirect_state s p
  rw [h]; rfl
@[simp] theorem resolveIndirect_f (p : Word) : (resolveIndirect s p).state.f = s.f := by
  obtain ⟨_, h, -⟩ := resolveIndirect_state s p
  rw [h]; rfl
@[simp] theorem resolveIndirect_tickcount (p : Word) : (resolveIndirect s p).state.tickcount = s.tickcount := by
  obtain ⟨_, h, -⟩ := resolveIndirect_state s p
  rw [h]; rfl
@[simp] theorem resolveIndirect_waitingForNmi (p : Word) : (resolveIndirect s p).state.waitingForNmi = s.waitingForNmi := by
  obtain ⟨_, h, -⟩ := resolveIndirect_state s p
  rw [h]; rfl
@[simp] theorem resolveIndirect_waitingForIrq (p : Word) : (resolveIndirect s p).state.waitingForIrq = s.waitingForIrq := by
  obtain ⟨_, h, -⟩ := resolveIndirect_state s p
  rw [h]; rfl
@[simp] theorem resolveIndirect_status (p : Word) : (resolveIndirect s p).state.status = s.status := by
  obtain ⟨_, h, -⟩ := resolveIndirect_state s p
  rw [h]; rfl
@[simp] theorem resolveIndirect_mem (p : Word) : (resolveIndirect s p).state.mem = s.mem := by
  obtain ⟨_, h, -⟩ := resolveIndirect_state s p
  rw [h]; rfl
@[simp] theorem resolveIndirect_cfg (p : Word) : (resolveIndirect s p).state.cfg = s.cfg := by
  obtain ⟨_, h, -⟩ := resolveIndirect_state s p
  rw [h]; rfl
@[simp] theorem resolveIndirect_byteAt (p : Word) (b : Word) : (resolveIndirect s p).state.byteAt b = s.byteAt b := by
  obtain ⟨_, h, -⟩ := resolveIndirect_state s p
  rw [h]; rfl

@[simp] theorem loadSource_a (src : Source) : (loadSource s src).state.a = s.a := by
  obtain ⟨_, h, -⟩ := loadSource_state s src
  rw [h]; rfl
@[simp] theorem loadSource_x (src : Source) : (loadSource s src).state.x = s.x := by
  obtain ⟨_, h, -⟩ := loadSource_state s src
  rw [h]; rfl
@[simp] theorem loadSource_y (src : Source) : (loadSource s src).state.y = s.y := by
  obtain ⟨_, h, -⟩ := loadSource_state s src
  rw [h]; rfl
@[simp] theorem loadSource_sp (src : Source) : (loadSource s src).state.sp = s.sp := by
  obtain ⟨_, h, -⟩ := loadSource_state s src
  rw [h]; rfl
@[simp] theorem loadSource_pc (src : Source) : (loadSource s src).state.pc = s.pc := by
  obtain ⟨_, h, -⟩ := loadSource_state s src
  rw [h]; rfl
@[simp] theorem loadSource_f (src : Source) : (loadSource s src).state.f = s.f := by
  obtain ⟨_, h, -⟩ := loadSource_state s src
  rw [h]; rfl
@[simp] theorem loadSource_tickcount (src : Source) : (loadSource s src).state.tickcount = s.tickcount := by
  obtain ⟨_, h, -⟩ := loadSource_state s src
  rw [h]; rfl
@[simp] theorem loadSource_waitingForNmi (src : Source) : (loadSource s src).state.waitingForNmi = s.waitingForNmi := by
  obtain ⟨_, h, -⟩ := loadSource_state s src
  rw [h]; rfl
@[simp] theorem loadSource_waitingForIrq (src : Source) : (loadSource s src).state.waitingForIrq = s.waitingForIrq := by
  obtain ⟨_, h, -⟩ := loadSource_state s src
  rw [h]; rfl
@[simp] theorem loadSource_status (src : Source) : (loadSource s src).state.status = s.status := by
  obtain ⟨_, h, -⟩ := loadSource_state s src
  rw [h]; rfl
@[simp] theorem loadSource_mem (src : Source) : (loadSource s src).state.mem = s.mem := by
  obtain ⟨_, h, -⟩ := loadSource_state s src
  rw [h]; rfl
@[simp] theorem loadSource_cfg (src : Source) : (loadSource s src).state.cfg = s.cfg := by
  obtain ⟨_, h, -⟩ := loadSource_state s src
  rw [h]; rfl
@[simp] theorem loadSource_byteAt (src : Source) (b : Word) : (loadSource s src).state.byteAt b = s.byteAt b := by
  obtain ⟨_, h, -⟩ := loadSource_state s src
  rw [h]; rfl

@[simp] theorem pop8_a  : (pop8 s).state.a = s.a := by
  obtain ⟨_, h, -⟩ := pop8_state s
  rw [h]; rfl
@[simp] theorem pop8_x  : (pop8 s).state.x = s.x := by
  obtain ⟨_, h, -⟩ := pop8_state s
  rw [h]; rfl
@[simp] theorem pop8_y  : (pop8 s).state.y = s.y := by
  obtain ⟨_, h, -⟩ := pop8_state s
  rw [h]; rfl
@[simp] theorem pop8_pc  : (pop8 s).state.pc = s.pc := by
  obtain ⟨_, h, -⟩ := pop8_state s
  rw [h]; rfl
@[simp] theorem pop8_f  : (pop8 s).state.f = s.f := by
  obtain ⟨_, h, -⟩ := pop8_state s
  rw [h]; rfl
@[simp] theorem pop8_tickcount  : (pop8 s).state.tickcount = s.tickcount := by
  obtain ⟨_, h, -⟩ := pop8_state s
  rw [h]; rfl
@[simp] theorem pop8_waitingForNmi  : (pop8 s).state.waitingForNmi = s.waitingForNmi := by
  obtain ⟨_, h, -⟩ := pop8_state s
  rw [h]; rfl
@[simp] theorem pop8_waitingForIrq  : (pop8 s).state.waitingForIrq = s.waitingForIrq := by
  obtain ⟨_, h, -⟩ := pop8_state s
  rw [h]; rfl
@[simp] theorem pop8_status  : (pop8 s).state.status = s.status := by
  obtain ⟨_, h, -⟩ := pop8_state s
  rw [h]; rfl
@[simp] theorem pop8_mem  : (pop8 s).state.mem = s.mem := by
  obtain ⟨_, h, -⟩ := pop8_state s
  rw [h]; rfl
@[simp] theorem pop8_cfg  : (pop8 s).state.cfg = s.cfg := by
  obtain ⟨_, h, -⟩ := pop8_state s
  rw [h]; rfl
@[simp] theorem pop8_byteAt  (b : Word) : (pop8 s).state.byteAt b = s.byteAt b := by
  obtain ⟨_, h, -⟩ := pop8_state s
  rw [h]; rfl

@[simp] theorem pop16_a  : (pop16 s).state.a = s.a := by
  obtain ⟨_, h, -⟩ := pop16_state s
  rw [h]; rfl
@[simp] theorem pop16_x  : (pop16 s).state.x = s.x := by
  obtain ⟨_, h, -⟩ := pop16_state s
  rw [h]; rfl
@[simp] theorem pop16_y  : (pop16 s).state.y = s.y := by
  obtain ⟨_, h, -⟩ := pop16_state s
  rw [h]; rfl
@[simp] theorem pop16_pc  : (pop16 s).state.pc = s.pc := by
  obtain ⟨_, h, -⟩ := pop16_state s
  rw [h]; rfl
@[simp] theorem pop16_f  : (pop16 s).state.f = s.f := by
  obtain ⟨_, h, -⟩ := pop16_state s
  rw [h]; rfl
@[simp] theorem pop16_tickcount  : (pop16 s).state.tickcount = s.tickcount := by
  obtain ⟨_, h, -⟩ := pop16_state s
  rw [h]; rfl
@[simp] theorem pop16_waitingForNmi  : (pop16 s).state.waitingForNmi = s.waitingForNmi := by
  obtain ⟨_, h, -⟩ := pop16_state s
  rw [h]; rfl
@[simp] theorem pop16_waitingForIrq  : (pop16 s).state.waitingForIrq = s.waitingForIrq := by
  obtain ⟨_, h, -⟩ := pop16_state s
  rw [h]; rfl
@[simp] theorem pop16_status  : (pop16 s).state.status = s.status := by
  obtain ⟨_, h, -⟩ := pop16_state s
  rw [h]; rfl
@[simp] theorem pop16_mem  : (pop16 s).state.mem = s.mem := by
  obtain ⟨_, h, -⟩ := pop16_state s
  rw [h]; rfl
@[simp] theorem pop16_cfg  : (pop16 s).state.cfg = s.cfg := by
  obtain ⟨_, h, -⟩ := pop16_state s
  rw [h]; rfl
@[simp] theorem pop16_byteAt  (b : Word) : (pop16 s).state.byteAt b = s.byteAt b := by
  obtain ⟨_, h, -⟩ := pop16_state s
  rw [h]; rfl

@[simp] theorem memWrite_a (a : Word) (v : Byte) : (memWrite s a v).a = s.a := by
  obtain ⟨_, _, h, -⟩ := memWrite_eq s a v
  rw [h]; rfl
@[simp] theorem memWrite_x (a : Word) (v : Byte) : (memWrite s a v).x = s.x := by
  obtain ⟨_, _, h, -⟩ := memWrite_eq s a v
  rw [h]; rfl
@[simp] theorem memWrite_y (a : Word) (v : Byte) : (memWrite s a v).y = s.y := by
  obtain ⟨_, _, h, -⟩ := memWrite_eq s a v
  rw [h]; rfl
@[simp] theorem memWrite_sp (a : Word) (v : Byte) : (memWrite s a v).sp = s.sp := by
  obtain ⟨_, _, h, -⟩ := memWrite_eq s a v
  rw [h]; rfl
@[simp] theorem memWrite_pc (a : Word) (v : Byte) : (memWrite s a v).pc = s.pc := by
  obtain ⟨_, _, h, -⟩ := memWrite_eq s a v
  rw [h]; rfl
@[simp] theorem memWrite_f (a : Word) (v : Byte) : (memWrite s a v).f = s.f := by
  obtain ⟨_, _, h, -⟩ := memWrite_eq s a v
  rw [h]; rfl
@[simp] theorem memWrite_tickcount (a : Word) (v : Byte) : (memWrite s a v).tickcount = s.tickcount := by
  obtain ⟨_, _, h, -⟩ := memWrite_eq s a v
  rw [h]; rfl
@[simp] theorem memWrite_waitingForNmi (a : Word) (v : Byte) : (memWrite s a v).waitingForNmi = s.waitingForNmi := by
  obtain ⟨_, _, h, -⟩ := memWrite_eq s a v
  rw [h]; rfl
@[simp] theorem memWrite_waitingForIrq (a : Word) (v : Byte) : (memWrite s a v).waitingForIrq = s.waitingForIrq := by
  obtain ⟨_, _, h, -⟩ := memWrite_eq s a v
  rw [h]; rfl
@[simp] theorem memWrite_status (a : Word) (v : Byte) : (memWrite s a v).status = s.status := by
  obtain ⟨_, _, h, -⟩ := memWrite_eq s a v
  rw [h]; rfl
@[simp] theorem memWrite_cfg (a : Word) (v : Byte) : (memWrite s a v).cfg = s.cfg := by
  obtain ⟨_, _, h, -⟩ := memWrite_eq s a v
  rw [h]; rfl

@[simp] theorem push8_a (v : Byte) : (push8 s v).a = s.a := by
  obtain ⟨_, _, h, -⟩ := push8_eq s v
  rw [h]; rfl
@[simp] theorem push8_x (v : Byte) : (push8 s v).x = s.x := by
  obtain ⟨_, _, h, -⟩ := push8_eq s v
  rw [h]; rfl
@[simp] theorem push8_y (v : Byte) : (push8 s v).y = s.y := by
  obtain ⟨_, _, h, -⟩ := push8_eq s v
  rw [h]; rfl
@[simp] theorem push8_pc (v : Byte) : (push8 s v).pc = s.pc := by
  obtain ⟨_, _, h, -⟩ := push8_eq s v
  rw [h]; rfl
@[simp] theorem push8_f (v : Byte) : (push8 s v).f = s.f := by
  obtain ⟨_, _, h, -⟩ := push8_eq s v
  rw [h]; rfl
@[simp] theorem push8_tickcount (v : Byte) : (push8 s v).tickcount = s.tickcount := by
  obtain ⟨_, _, h, -⟩ := push8_eq s v
  rw [h]; rfl
@[simp] theorem push8_waitingForNmi (v : Byte) : (push8 s v).waitingForNmi = s.waitingForNmi := by
  obtain ⟨_, _, h, -⟩ := push8_eq s v
  rw [h]; rfl
@[simp] theorem push8_waitingForIrq (v : Byte) : (push8 s v).waitingForIrq = s.waitingForIrq := by
  obtain ⟨_, _, h, -⟩ := push8_eq s v
  rw [h]; rfl
@[simp] theorem push8_status (v : Byte) : (push8 s v).status = s.status := by
  obtain ⟨_, _, h, -⟩ := push8_eq s v
  rw [h]; rfl

@[simp] theorem push16_a (w : Word) : (push16 s w).a = s.a := by
  simp only [push16, push8_a]
@[simp] theorem push16_x (w : Word) : (push16 s w).x = s.x := by
  simp only [push16, push8_x]
@[simp] theorem push16_y (w : Word) : (push16 s w).y = s.y := by
  simp only [push16, push8_y]
@[simp] theorem push16_pc (w : Word) : (push16 s w).pc = s.pc := by
  simp only [push16, push8_pc]
@[simp] theorem push16_f (w : Word) : (push16 s w).f = s.f := by
  simp only [push16, push8_f]
@[simp] theorem push16_tickcount (w : Word) : (push16 s w).tickcount = s.tickcount := by
  simp only [push16, push8_tickcount]
@[simp] theorem push16_waitingForNmi (w : Word) : (push16 s w).waitingForNmi = s.waitingForNmi := by
  simp only [push16, push8_waitingForNmi]
@[simp] theorem push16_waitingForIrq (w : Word) : (push16 s w).waitingForIrq = s.waitingForIrq := by
  simp only [push16, push8_waitingForIrq]
@[simp] theorem push16_status (w : Word) : (push16 s w).status = s.status := by
  simp only [push16, push8_status]
@[simp] theorem push16_cfg (w : Word) : (push16 s w).cfg = s.cfg := by
  simp only [push16, push8_cfg]

@[simp] theorem push16_sp (w : Word) : (push16 s w).sp = s.sp - 1#8 - 1#8 := by
  simp only [push16, push8_sp]
@[simp] theorem pop8_sp : (pop8 s).state.sp = s.sp + 1#8 := by
  obtain ⟨_, h, -⟩ := pop8_state s
  rw [h]; rfl
@[simp] theorem pop16_sp : (pop16 s).state.sp = s.sp + 1#8 + 1#8 := by
  show (pop8 (pop8 s).state).state.sp = _
  rw [pop8_sp, pop8_sp]

/-- Two states with one memory, one configuration and one count of hook calls read the same byte. -/
theorem memRead_congr {s t : State} (a : Word) (hm : s.mem = t.mem) (hc : s.cfg = t.cfg) (hh : s.hookCalls = t.hookCalls) :
    (memRead s a).value = (memRead t a).value ∧ (memRead s a).state.hookCalls = (memRead t a).state.hookCalls := by
  simp only [memRead, State.byteAt, hm, hc, hh]
  split <;> exact ⟨rfl, by first | rfl | exact hh⟩

end Sys2Proof.Machine
end

