-- ==== Sys2Proof/Laws/Outside.lean ====
section
/-!
SUPPORT. The accesses to memory, the operand resolver and the stack read memory, the configuration, the count of hook calls and
the registers X, Y and SP, and nothing else: an update of any other part of the state passes through them.
-/
namespace Sys2Proof.Machine

/-- `u` updates a part of the state that no access reads or writes. -/
structure Outside (u : State → State) : Prop where
  mem : ∀ s, (u s).mem = s.mem
  cfg : ∀ s, (u s).cfg = s.cfg
  hookCalls : ∀ s, (u s).hookCalls = s.hookCalls
  x : ∀ s, (u s).x = s.x
  y : ∀ s, (u s).y = s.y
  sp : ∀ s, (u s).sp = s.sp
  setHookCalls : ∀ s n, u (s.setHookCalls n) = (u s).setHookCalls n
  setMem : ∀ s m, u (s.setMem m) = (u s).setMem m
  setSp : ∀ s v, u (s.setSp v) = (u s).setSp v

theorem outside_setF (v : Byte) : Outside (·.setF v) := by constructor <;> intros <;> rfl
theorem outside_setPc (w : Word) : Outside (·.setPc w) := by constructor <;> intros <;> rfl
theorem outside_setA (v : Byte) : Outside (·.setA v) := by constructor <;> intros <;> rfl
theorem outside_setStatus (st : Status) : Outside (·.setStatus st) := by constructor <;> intros <;> rfl
theorem outside_addTicks (n : Nat) : Outside (·.addTicks n) := by constructor <;> intros <;> rfl
theorem outside_putFlag (fl : Flag) (b : Bool) : Outside (·.putFlag fl b) := by constructor <;> intros <;> rfl
theorem outside_hostSetWaiting (nmi irq : Bool) : Outside (hostSetWaiting · nmi irq) := by constructor <;> intros <;> rfl

variable {u : State → State} (h : Outside u) (s : State)
include h

theorem Outside.byteAt (a : Word) : (u s).byteAt a = s.byteAt a := by simp only [State.byteAt, h.mem]

theorem Outside.setByte (a : Word) (v : Byte) : (u s).setByte a v = u (s.setByte a v) := by
  simp only [State.setByte, h.mem, h.setMem]

theorem Outside.memRead (a : Word) :
    memRead (u s) a = { value := (memRead s a).value, state := u (memRead s a).state } := by
  simp only [Sys2Proof.Machine.memRead, h.cfg, h.hookCalls, h.byteAt, ← h.setHookCalls]
  split <;> rfl

theorem Outside.memWrite (a : Word) (v : Byte) : memWrite (u s) a v = u (memWrite s a v) := by
  simp only [Sys2Proof.Machine.memWrite, h.cfg, h.hookCalls, h.setByte, ← h.setHookCalls]
  split <;> rfl

theorem Outside.readPair (lo hi : Word) :
    readPair (u s) lo hi = { value := (readPair s lo hi).value, state := u (readPair s lo hi).state } := by
  simp only [Sys2Proof.Machine.readPair, h.memRead]

theorem Outside.readWord (a : Word) :
    readWord (u s) a = { value := (readWord s a).value, state := u (readWord s a).state } := h.readPair s _ _

theorem Outside.readWordZP (z : Byte) :
    readWordZP (u s) z = { value := (readWordZP s z).value, state := u (readWordZP s z).state } := h.readPair s _ _

theorem Outside.resolveIndirect (p : Word) :
    resolveIndirect (u s) p = { value := (resolveIndirect s p).value, state := u (resolveIndirect s p).state } := by
  simp only [Sys2Proof.Machine.resolveIndirect, h.cfg, h.readPair]

theorem Outside.resolveEa (m : EaMode) :
    resolveEa (u s) m =
      { ea := (resolveEa s m).ea, crossed := (resolveEa s m).crossed, state := u (resolveEa s m).state } := by
  cases m <;> simp only [Sys2Proof.Machine.resolveEa, indexed, h.cfg, h.x, h.y, h.readWordZP]

theorem Outside.loadSource (src : Source) :
    loadSource (u s) src =
      { value := (loadSource s src).value, crossed := (loadSource s src).crossed, state := u (loadSource s src).state } := by
  cases src with
  | imm v => rfl
  | mem m => simp only [Sys2Proof.Machine.loadSource, h.resolveEa, h.memRead]

theorem Outside.push8 (v : Byte) : push8 (u s) v = u (push8 s v) := by
  simp only [Sys2Proof.Machine.push8, h.sp, h.memWrite, h.setSp]

theorem Outside.push16 (w : Word) : push16 (u s) w = u (push16 s w) := by
  simp only [Sys2Proof.Machine.push16, h.push8]

theorem Outside.pop8 : pop8 (u s) = { value := (pop8 s).value, state := u (pop8 s).state } := by
  simp only [Sys2Proof.Machine.pop8, h.sp, ← h.setSp, h.memRead]

theorem Outside.pop16 : pop16 (u s) = { value := (pop16 s).value, state := u (pop16 s).state } := by
  simp only [Sys2Proof.Machine.pop16, h.pop8]

end Sys2Proof.Machine
end

