-- ==== Sys2Proof/Laws/PerInstr.lean ====
section
/-!
SUPPORT. Facts about every instruction as syntax, one lemma per constructor of Instr.
-/
namespace Sys2Proof.Laws

/-- The first encoded byte's table entry says how many bytes follow it (30_encoding.md R67), and there are at most two. -/
def EncodedForm.Statement (i : Instr) : Prop :=
  ∃ op operand, encode i = op :: operand ∧ (decodeByte op).operandCount = operand.length ∧ operand.length ≤ 2

theorem EncodedForm.ldaIndX (z : Byte) : EncodedForm.Statement (.ldaIndX z) :=
  ⟨_, _, rfl, rfl, Nat.le_of_ble_eq_true rfl⟩
theorem EncodedForm.ldaZp (z : Byte) : EncodedForm.Statement (.ldaZp z) :=
  ⟨_, _, rfl, rfl, Nat.le_of_ble_eq_true rfl⟩
theorem EncodedForm.ldaImm (v : Byte) : EncodedForm.Statement (.ldaImm v) :=
  ⟨_, _, rfl, rfl, Nat.le_of_ble_eq_true rfl⟩
theorem EncodedForm.ldaAbs (w : Word) : EncodedForm.Statement (.ldaAbs w) :=
  ⟨_, _, rfl, rfl, Nat.le_of_ble_eq_true rfl⟩
theorem EncodedForm.ldaIndY (z : Byte) : EncodedForm.Statement (.ldaIndY z) :=
  ⟨_, _, rfl, rfl, Nat.le_of_ble_eq_true rfl⟩
theorem EncodedForm.ldaZpX (z : Byte) : EncodedForm.Statement (.ldaZpX z) :=
  ⟨_, _, rfl, rfl, Nat.le_of_ble_eq_true rfl⟩
theorem EncodedForm.ldaAbsY (w : Word) : EncodedForm.Statement (.ldaAbsY w) :=
  ⟨_, _, rfl, rfl, Nat.le_of_ble_eq_true rfl⟩
theorem EncodedForm.ldaAbsX (w : Word) : EncodedForm.Statement (.ldaAbsX w) :=
  ⟨_, _, rfl, rfl, Nat.le_of_ble_eq_true rfl⟩
theorem EncodedForm.ldxImm (v : Byte) : EncodedForm.Statement (.ldxImm v) :=
  ⟨_, _, rfl, rfl, Nat.le_of_ble_eq_true rfl⟩
theorem EncodedForm.ldxZp (z : Byte) : EncodedForm.Statement (.ldxZp z) :=
  ⟨_, _, rfl, rfl, Nat.le_of_ble_eq_true rfl⟩
theorem EncodedForm.ldxAbs (w : Word) : EncodedForm.Statement (.ldxAbs w) :=
  ⟨_, _, rfl, rfl, Nat.le_of_ble_eq_true rfl⟩
theorem EncodedForm.ldxZpY (z : Byte) : EncodedForm.Statement (.ldxZpY z) :=
  ⟨_, _, rfl, rfl, Nat.le_of_ble_eq_true rfl⟩
theorem EncodedForm.ldxAbsY (w : Word) : EncodedForm.Statement (.ldxAbsY w) :=
  ⟨_, _, rfl, rfl, Nat.le_of_ble_eq_true rfl⟩
theorem EncodedForm.ldyImm (v : Byte) : EncodedForm.Statement (.ldyImm v) :=
  ⟨_, _, rfl, rfl, Nat.le_of_ble_eq_true rfl⟩
theorem EncodedForm.ldyZp (z : Byte) : EncodedForm.Statement (.ldyZp z) :=
  ⟨_, _, rfl, rfl, Nat.le_of_ble_eq_true rfl⟩
theorem EncodedForm.ldyAbs (w : Word) : EncodedForm.Statement (.ldyAbs w) :=
  ⟨_, _, rfl, rfl, Nat.le_of_ble_eq_true rfl⟩
theorem EncodedForm.ldyZpX (z : Byte) : EncodedForm.Statement (.ldyZpX z) :=
  ⟨_, _, rfl, rfl, Nat.le_of_ble_eq_true rfl⟩
theorem EncodedForm.ldyAbsX (w : Word) : EncodedForm.Statement (.ldyAbsX w) :=
  ⟨_, _, rfl, rfl, Nat.le_of_ble_eq_true rfl⟩
theorem EncodedForm.staIndX (z : Byte) : EncodedForm.Statement (.staIndX z) :=
  ⟨_, _, rfl, rfl, Nat.le_of_ble_eq_true rfl⟩
theorem EncodedForm.staZp (z : Byte) : EncodedForm.Statement (.staZp z) :=
  ⟨_, _, rfl, rfl, Nat.le_of_ble_eq_true rfl⟩
theorem EncodedForm.staAbs (w : Word) : EncodedForm.Statement (.staAbs w) :=
  ⟨_, _, rfl, rfl, Nat.le_of_ble_eq_true rfl⟩
theorem EncodedForm.staIndY (z : Byte) : EncodedForm.Statement (.staIndY z) :=
  ⟨_, _, rfl, rfl, Nat.le_of_ble_eq_true rfl⟩
theorem EncodedForm.staZpX (z : Byte) : EncodedForm.Statement (.staZpX z) :=
  ⟨_, _, rfl, rfl, Nat.le_of_ble_eq_true rfl⟩
theorem EncodedForm.staAbsY (w : Word) : EncodedForm.Statement (.staAbsY w) :=
  ⟨_, _, rfl, rfl, Nat.le_of_ble_eq_true rfl⟩
theorem EncodedForm.staAbsX (w : Word) : EncodedForm.Statement (.staAbsX w) :=
  ⟨_, _, rfl, rfl, Nat.le_of_ble_eq_true rfl⟩
theorem EncodedForm.stxZp (z : Byte) : EncodedForm.Statement (.stxZp z) :=
  ⟨_, _, rfl, rfl, Nat.le_of_ble_eq_true rfl⟩
theorem EncodedForm.stxAbs (w : Word) : EncodedForm.Statement (.stxAbs w) :=
  ⟨_, _, rfl, rfl, Nat.le_of_ble_eq_true rfl⟩
theorem EncodedForm.stxZpY (z : Byte) : EncodedForm.Statement (.stxZpY z) :=
  ⟨_, _, rfl, rfl, Nat.le_of_ble_eq_true rfl⟩
theorem EncodedForm.styZp (z : Byte) : EncodedForm.Statement (.styZp z) :=
  ⟨_, _, rfl, rfl, Nat.le_of_ble_eq_true rfl⟩
theorem EncodedForm.styAbs (w : Word) : EncodedForm.Statement (.styAbs w) :=
  ⟨_, _, rfl, rfl, Nat.le_of_ble_eq_true rfl⟩
theorem EncodedForm.styZpX (z : Byte) : EncodedForm.Statement (.styZpX z) :=
  ⟨_, _, rfl, rfl, Nat.le_of_ble_eq_true rfl⟩
theorem EncodedForm.tax : EncodedForm.Statement .tax :=
  ⟨_, _, rfl, rfl, Nat.le_of_ble_eq_true rfl⟩
theorem EncodedForm.tay : EncodedForm.Statement .tay :=
  ⟨_, _, rfl, rfl, Nat.le_of_ble_eq_true rfl⟩
theorem EncodedForm.txa : EncodedForm.Statement .txa :=
  ⟨_, _, rfl, rfl, Nat.le_of_ble_eq_true rfl⟩
theorem EncodedForm.tya : EncodedForm.Statement .tya :=
  ⟨_, _, rfl, rfl, Nat.le_of_ble_eq_true rfl⟩
theorem EncodedForm.tsx : EncodedForm.Statement .tsx :=
  ⟨_, _, rfl, rfl, Nat.le_of_ble_eq_true rfl⟩
theorem EncodedForm.txs : EncodedForm.Statement .txs :=
  ⟨_, _, rfl, rfl, Nat.le_of_ble_eq_true rfl⟩
theorem EncodedForm.adcIndX (z : Byte) : EncodedForm.Statement (.adcIndX z) :=
  ⟨_, _, rfl, rfl, Nat.le_of_ble_eq_true rfl⟩
theorem EncodedForm.adcZp (z : Byte) : EncodedForm.Statement (.adcZp z) :=
  ⟨_, _, rfl, rfl, Nat.le_of_ble_eq_true rfl⟩
theorem EncodedForm.adcImm (v : Byte) : EncodedForm.Statement (.adcImm v) :=
  ⟨_, _, rfl, rfl, Nat.le_of_ble_eq_true rfl⟩
theorem EncodedForm.adcAbs (w : Word) : EncodedForm.Statement (.adcAbs w) :=
  ⟨_, _, rfl, rfl, Nat.le_of_ble_eq_true rfl⟩
theorem EncodedForm.adcIndY (z : Byte) : EncodedForm.Statement (.adcIndY z) :=
  ⟨_, _, rfl, rfl, Nat.le_of_ble_eq_true rfl⟩
theorem EncodedForm.adcZpX (z : Byte) : EncodedForm.Statement (.adcZpX z) :=
  ⟨_, _, rfl, rfl, Nat.le_of_ble_eq_true rfl⟩
theorem EncodedForm.adcAbsY (w : Word) : EncodedForm.Statement (.adcAbsY w) :=
  ⟨_, _, rfl, rfl, Nat.le_of_ble_eq_true rfl⟩
theorem EncodedForm.adcAbsX (w : Word) : EncodedForm.Statement (.adcAbsX w) :=
  ⟨_, _, rfl, rfl, Nat.le_of_ble_eq_true rfl⟩
theorem EncodedForm.sbcIndX (z : Byte) : EncodedForm.Statement (.sbcIndX z) :=
  ⟨_, _, rfl, rfl, Nat.le_of_ble_eq_true rfl⟩
theorem EncodedForm.sbcZp (z : Byte) : EncodedForm.Statement (.sbcZp z) :=
  ⟨_, _, rfl, rfl, Nat.le_of_ble_eq_true rfl⟩
theorem EncodedForm.sbcImm (v : Byte) : EncodedForm.Statement (.sbcImm v) :=
  ⟨_, _, rfl, rfl, Nat.le_of_ble_eq_true rfl⟩
theorem EncodedForm.sbcAbs (w : Word) : EncodedForm.Statement (.sbcAbs w) :=
  ⟨_, _, rfl, rfl, Nat.le_of_ble_eq_true rfl⟩
theorem EncodedForm.sbcIndY (z : Byte) : EncodedForm.Statement (.sbcIndY z) :=
  ⟨_, _, rfl, rfl, Nat.le_of_ble_eq_true rfl⟩
theorem EncodedForm.sbcZpX (z : Byte) : EncodedForm.Statement (.sbcZpX z) :=
  ⟨_, _, rfl, rfl, Nat.le_of_ble_eq_true rfl⟩
theorem EncodedForm.sbcAbsY (w : Word) : EncodedForm.Statement (.sbcAbsY w) :=
  ⟨_, _, rfl, rfl, Nat.le_of_ble_eq_true rfl⟩
theorem EncodedForm.sbcAbsX (w : Word) : EncodedForm.Statement (.sbcAbsX w) :=
  ⟨_, _, rfl, rfl, Nat.le_of_ble_eq_true rfl⟩
theorem EncodedForm.cmpIndX (z : Byte) : EncodedForm.Statement (.cmpIndX z) :=
  ⟨_, _, rfl, rfl, Nat.le_of_ble_eq_true rfl⟩
theorem EncodedForm.cmpZp (z : Byte) : EncodedForm.Statement (.cmpZp z) :=
  ⟨_, _, rfl, rfl, Nat.le_of_ble_eq_true rfl⟩
theorem EncodedForm.cmpImm (v : Byte) : EncodedForm.Statement (.cmpImm v) :=
  ⟨_, _, rfl, rfl, Nat.le_of_ble_eq_true rfl⟩
theorem EncodedForm.cmpAbs (w : Word) : EncodedForm.Statement (.cmpAbs w) :=
  ⟨_, _, rfl, rfl, Nat.le_of_ble_eq_true rfl⟩
theorem EncodedForm.cmpIndY (z : Byte) : EncodedForm.Statement (.cmpIndY z) :=
  ⟨_, _, rfl, rfl, Nat.le_of_ble_eq_true rfl⟩
theorem EncodedForm.cmpZpX (z : Byte) : EncodedForm.Statement (.cmpZpX z) :=
  ⟨_, _, rfl, rfl, Nat.le_of_ble_eq_true rfl⟩
theorem EncodedForm.cmpAbsY (w : Word) : EncodedForm.Statement (.cmpAbsY w) :=
  ⟨_, _, rfl, rfl, Nat.le_of_ble_eq_true rfl⟩
theorem EncodedForm.cmpAbsX (w : Word) : EncodedForm.Statement (.cmpAbsX w) :=
  ⟨_, _, rfl, rfl, Nat.le_of_ble_eq_true rfl⟩
theorem EncodedForm.cpxImm (v : Byte) : EncodedForm.Statement (.cpxImm v) :=
  ⟨_, _, rfl, rfl, Nat.le_of_ble_eq_true rfl⟩
theorem EncodedForm.cpxZp (z : Byte) : EncodedForm.Statement (.cpxZp z) :=
  ⟨_, _, rfl, rfl, Nat.le_of_ble_eq_true rfl⟩
theorem EncodedForm.cpxAbs (w : Word) : EncodedForm.Statement (.cpxAbs w) :=
  ⟨_, _, rfl, rfl, Nat.le_of_ble_eq_true rfl⟩
theorem EncodedForm.cpyImm (v : Byte) : EncodedForm.Statement (.cpyImm v) :=
  ⟨_, _, rfl, rfl, Nat.le_of_ble_eq_true rfl⟩
theorem EncodedForm.cpyZp (z : Byte) : EncodedForm.Statement (.cpyZp z) :=
  ⟨_, _, rfl, rfl, Nat.le_of_ble_eq_true rfl⟩
theorem EncodedForm.cpyAbs (w : Word) : EncodedForm.Statement (.cpyAbs w) :=
  ⟨_, _, rfl, rfl, Nat.le_of_ble_eq_true rfl⟩
theorem EncodedForm.incZp (z : Byte) : EncodedForm.Statement (.incZp z) :=
  ⟨_, _, rfl, rfl, Nat.le_of_ble_eq_true rfl⟩
theorem EncodedForm.incAbs (w : Word) : EncodedForm.Statement (.incAbs w) :=
  ⟨_, _, rfl, rfl, Nat.le_of_ble_eq_true rfl⟩
theorem EncodedForm.incZpX (z : Byte) : EncodedForm.Statement (.incZpX z) :=
  ⟨_, _, rfl, rfl, Nat.le_of_ble_eq_true rfl⟩
theorem EncodedForm.incAbsX (w : Word) : EncodedForm.Statement (.incAbsX w) :=
  ⟨_, _, rfl, rfl, Nat.le_of_ble_eq_true rfl⟩
theorem EncodedForm.decZp (z : Byte) : EncodedForm.Statement (.decZp z) :=
  ⟨_, _, rfl, rfl, Nat.le_of_ble_eq_true rfl⟩
theorem EncodedForm.decAbs (w : Word) : EncodedForm.Statement (.decAbs w) :=
  ⟨_, _, rfl, rfl, Nat.le_of_ble_eq_true rfl⟩
theorem EncodedForm.decZpX (z : Byte) : EncodedForm.Statement (.decZpX z) :=
  ⟨_, _, rfl, rfl, Nat.le_of_ble_eq_true rfl⟩
theorem EncodedForm.decAbsX (w : Word) : EncodedForm.Statement (.decAbsX w) :=
  ⟨_, _, rfl, rfl, Nat.le_of_ble_eq_true rfl⟩
theorem EncodedForm.inx : EncodedForm.Statement .inx :=
  ⟨_, _, rfl, rfl, Nat.le_of_ble_eq_true rfl⟩
theorem EncodedForm.iny : EncodedForm.Statement .iny :=
  ⟨_, _, rfl, rfl, Nat.le_of_ble_eq_true rfl⟩
theorem EncodedForm.dex : EncodedForm.Statement .dex :=
  ⟨_, _, rfl, rfl, Nat.le_of_ble_eq_true rfl⟩
theorem EncodedForm.dey : EncodedForm.Statement .dey :=
  ⟨_, _, rfl, rfl, Nat.le_of_ble_eq_true rfl⟩
theorem EncodedForm.andIndX (z : Byte) : EncodedForm.Statement (.andIndX z) :=
  ⟨_, _, rfl, rfl, Nat.le_of_ble_eq_true rfl⟩
theorem EncodedForm.andZp (z : Byte) : EncodedForm.Statement (.andZp z) :=
  ⟨_, _, rfl, rfl, Nat.le_of_ble_eq_true rfl⟩
theorem EncodedForm.andImm (v : Byte) : EncodedForm.Statement (.andImm v) :=
  ⟨_, _, rfl, rfl, Nat.le_of_ble_eq_true rfl⟩
theorem EncodedForm.andAbs (w : Word) : EncodedForm.Statement (.andAbs w) :=
  ⟨_, _, rfl, rfl, Nat.le_of_ble_eq_true rfl⟩
theorem EncodedForm.andIndY (z : Byte) : EncodedForm.Statement (.andIndY z) :=
  ⟨_, _, rfl, rfl, Nat.le_of_ble_eq_true rfl⟩
theorem EncodedForm.andZpX (z : Byte) : EncodedForm.Statement (.andZpX z) :=
  ⟨_, _, rfl, rfl, Nat.le_of_ble_eq_true rfl⟩
theorem EncodedForm.andAbsY (w : Word) : EncodedForm.Statement (.andAbsY w) :=
  ⟨_, _, rfl, rfl, Nat.le_of_ble_eq_true rfl⟩
theorem EncodedForm.andAbsX (w : Word) : EncodedForm.Statement (.andAbsX w) :=
  ⟨_, _, rfl, rfl, Nat.le_of_ble_eq_true rfl⟩
theorem EncodedForm.oraIndX (z : Byte) : EncodedForm.Statement (.oraIndX z) :=
  ⟨_, _, rfl, rfl, Nat.le_of_ble_eq_true rfl⟩
theorem EncodedForm.oraZp (z : Byte) : EncodedForm.Statement (.oraZp z) :=
  ⟨_, _, rfl, rfl, Nat.le_of_ble_eq_true rfl⟩
theorem EncodedForm.oraImm (v : Byte) : EncodedForm.Statement (.oraImm v) :=
  ⟨_, _, rfl, rfl, Nat.le_of_ble_eq_true rfl⟩
theorem EncodedForm.oraAbs (w : Word) : EncodedForm.Statement (.oraAbs w) :=
  ⟨_, _, rfl, rfl, Nat.le_of_ble_eq_true rfl⟩
theorem EncodedForm.oraIndY (z : Byte) : EncodedForm.Statement (.oraIndY z) :=
  ⟨_, _, rfl, rfl, Nat.le_of_ble_eq_true rfl⟩
theorem EncodedForm.oraZpX (z : Byte) : EncodedForm.Statement (.oraZpX z) :=
  ⟨_, _, rfl, rfl, Nat.le_of_ble_eq_true rfl⟩
theorem EncodedForm.oraAbsY (w : Word) : EncodedForm.Statement (.oraAbsY w) :=
  ⟨_, _, rfl, rfl, Nat.le_of_ble_eq_true rfl⟩
theorem EncodedForm.oraAbsX (w : Word) : EncodedForm.Statement (.oraAbsX w) :=
  ⟨_, _, rfl, rfl, Nat.le_of_ble_eq_true rfl⟩
theorem EncodedForm.eorIndX (z : Byte) : EncodedForm.Statement (.eorIndX z) :=
  ⟨_, _, rfl, rfl, Nat.le_of_ble_eq_true rfl⟩
theorem EncodedForm.eorZp (z : Byte) : EncodedForm.Statement (.eorZp z) :=
  ⟨_, _, rfl, rfl, Nat.le_of_ble_eq_true rfl⟩
theorem EncodedForm.eorImm (v : Byte) : EncodedForm.Statement (.eorImm v) :=
  ⟨_, _, rfl, rfl, Nat.le_of_ble_eq_true rfl⟩
theorem EncodedForm.eorAbs (w : Word) : EncodedForm.Statement (.eorAbs w) :=
  ⟨_, _, rfl, rfl, Nat.le_of_ble_eq_true rfl⟩
theorem EncodedForm.eorIndY (z : Byte) : EncodedForm.Statement (.eorIndY z) :=
  ⟨_, _, rfl, rfl, Nat.le_of_ble_eq_true rfl⟩
theorem EncodedForm.eorZpX (z : Byte) : EncodedForm.Statement (.eorZpX z) :=
  ⟨_, _, rfl, rfl, Nat.le_of_ble_eq_true rfl⟩
theorem EncodedForm.eorAbsY (w : Word) : EncodedForm.Statement (.eorAbsY w) :=
  ⟨_, _, rfl, rfl, Nat.le_of_ble_eq_true rfl⟩
theorem EncodedForm.eorAbsX (w : Word) : EncodedForm.Statement (.eorAbsX w) :=
  ⟨_, _, rfl, rfl, Nat.le_of_ble_eq_true rfl⟩
theorem EncodedForm.bitZp (z : Byte) : EncodedForm.Statement (.bitZp z) :=
  ⟨_, _, rfl, rfl, Nat.le_of_ble_eq_true rfl⟩
theorem EncodedForm.bitAbs (w : Word) : EncodedForm.Statement (.bitAbs w) :=
  ⟨_, _, rfl, rfl, Nat.le_of_ble_eq_true rfl⟩
theorem EncodedForm.aslZp (z : Byte) : EncodedForm.Statement (.aslZp z) :=
  ⟨_, _, rfl, rfl, Nat.le_of_ble_eq_true rfl⟩
theorem EncodedForm.aslA : EncodedForm.Statement .aslA :=
  ⟨_, _, rfl, rfl, Nat.le_of_ble_eq_true rfl⟩
theorem EncodedForm.aslAbs (w : Word) : EncodedForm.Statement (.aslAbs w) :=
  ⟨_, _, rfl, rfl, Nat.le_of_ble_eq_true rfl⟩
theorem EncodedForm.aslZpX (z : Byte) : EncodedForm.Statement (.aslZpX z) :=
  ⟨_, _, rfl, rfl, Nat.le_of_ble_eq_true rfl⟩
theorem EncodedForm.aslAbsX (w : Word) : EncodedForm.Statement (.aslAbsX w) :=
  ⟨_, _, rfl, rfl, Nat.le_of_ble_eq_true rfl⟩
theorem EncodedForm.lsrZp (z : Byte) : EncodedForm.Statement (.lsrZp z) :=
  ⟨_, _, rfl, rfl, Nat.le_of_ble_eq_true rfl⟩
theorem EncodedForm.lsrA : EncodedForm.Statement .lsrA :=
  ⟨_, _, rfl, rfl, Nat.le_of_ble_eq_true rfl⟩
theorem EncodedForm.lsrAbs (w : Word) : EncodedForm.Statement (.lsrAbs w) :=
  ⟨_, _, rfl, rfl, Nat.le_of_ble_eq_true rfl⟩
theorem EncodedForm.lsrZpX (z : Byte) : EncodedForm.Statement (.lsrZpX z) :=
  ⟨_, _, rfl, rfl, Nat.le_of_ble_eq_true rfl⟩
theorem EncodedForm.lsrAbsX (w : Word) : EncodedForm.Statement (.lsrAbsX w) :=
  ⟨_, _, rfl, rfl, Nat.le_of_ble_eq_true rfl⟩
theorem EncodedForm.rolZp (z : Byte) : EncodedForm.Statement (.rolZp z) :=
  ⟨_, _, rfl, rfl, Nat.le_of_ble_eq_true rfl⟩
theorem EncodedForm.rolA : EncodedForm.Statement .rolA :=
  ⟨_, _, rfl, rfl, Nat.le_of_ble_eq_true rfl⟩
theorem EncodedForm.rolAbs (w : Word) : EncodedForm.Statement (.rolAbs w) :=
  ⟨_, _, rfl, rfl, Nat.le_of_ble_eq_true rfl⟩
theorem EncodedForm.rolZpX (z : Byte) : EncodedForm.Statement (.rolZpX z) :=
  ⟨_, _, rfl, rfl, Nat.le_of_ble_eq_true rfl⟩
theorem EncodedForm.rolAbsX (w : Word) : EncodedForm.Statement (.rolAbsX w) :=
  ⟨_, _, rfl, rfl, Nat.le_of_ble_eq_true rfl⟩
theorem EncodedForm.rorZp (z : Byte) : EncodedForm.Statement (.rorZp z) :=
  ⟨_, _, rfl, rfl, Nat.le_of_ble_eq_true rfl⟩
theorem EncodedForm.rorA : EncodedForm.Statement .rorA :=
  ⟨_, _, rfl, rfl, Nat.le_of_ble_eq_true rfl⟩
theorem EncodedForm.rorAbs (w : Word) : EncodedForm.Statement (.rorAbs w) :=
  ⟨_, _, rfl, rfl, Nat.le_of_ble_eq_true rfl⟩
theorem EncodedForm.rorZpX (z : Byte) : EncodedForm.Statement (.rorZpX z) :=
  ⟨_, _, rfl, rfl, Nat.le_of_ble_eq_true rfl⟩
theorem EncodedForm.rorAbsX (w : Word) : EncodedForm.Statement (.rorAbsX w) :=
  ⟨_, _, rfl, rfl, Nat.le_of_ble_eq_true rfl⟩
theorem EncodedForm.pha : EncodedForm.Statement .pha :=
  ⟨_, _, rfl, rfl, Nat.le_of_ble_eq_true rfl⟩
theorem EncodedForm.php : EncodedForm.Statement .php :=
  ⟨_, _, rfl, rfl, Nat.le_of_ble_eq_true rfl⟩
theorem EncodedForm.pla : EncodedForm.Statement .pla :=
  ⟨_, _, rfl, rfl, Nat.le_of_ble_eq_true rfl⟩
theorem EncodedForm.plp : EncodedForm.Statement .plp :=
  ⟨_, _, rfl, rfl, Nat.le_of_ble_eq_true rfl⟩
theorem EncodedForm.clc : EncodedForm.Statement .clc :=
  ⟨_, _, rfl, rfl, Nat.le_of_ble_eq_true rfl⟩
theorem EncodedForm.sec : EncodedForm.Statement .sec :=
  ⟨_, _, rfl, rfl, Nat.le_of_ble_eq_true rfl⟩
theorem EncodedForm.cli : EncodedForm.Statement .cli :=
  ⟨_, _, rfl, rfl, Nat.le_of_ble_eq_true rfl⟩
theorem EncodedForm.sei : EncodedForm.Statement .sei :=
  ⟨_, _, rfl, rfl, Nat.le_of_ble_eq_true rfl⟩
theorem EncodedForm.cld : EncodedForm.Statement .cld :=
  ⟨_, _, rfl, rfl, Nat.le_of_ble_eq_true rfl⟩
theorem EncodedForm.sed : EncodedForm.Statement .sed :=
  ⟨_, _, rfl, rfl, Nat.le_of_ble_eq_true rfl⟩
theorem EncodedForm.clv : EncodedForm.Statement .clv :=
  ⟨_, _, rfl, rfl, Nat.le_of_ble_eq_true rfl⟩
theorem EncodedForm.nop : EncodedForm.Statement .nop :=
  ⟨_, _, rfl, rfl, Nat.le_of_ble_eq_true rfl⟩
theorem EncodedForm.bpl (rel : Byte) : EncodedForm.Statement (.bpl rel) :=
  ⟨_, _, rfl, rfl, Nat.le_of_ble_eq_true rfl⟩
theorem EncodedForm.bmi (rel : Byte) : EncodedForm.Statement (.bmi rel) :=
  ⟨_, _, rfl, rfl, Nat.le_of_ble_eq_true rfl⟩
theorem EncodedForm.bvc (rel : Byte) : EncodedForm.Statement (.bvc rel) :=
  ⟨_, _, rfl, rfl, Nat.le_of_ble_eq_true rfl⟩
theorem EncodedForm.bvs (rel : Byte) : EncodedForm.Statement (.bvs rel) :=
  ⟨_, _, rfl, rfl, Nat.le_of_ble_eq_true rfl⟩
theorem EncodedForm.bcc (rel : Byte) : EncodedForm.Statement (.bcc rel) :=
  ⟨_, _, rfl, rfl, Nat.le_of_ble_eq_true rfl⟩
theorem EncodedForm.bcs (rel : Byte) : EncodedForm.Statement (.bcs rel) :=
  ⟨_, _, rfl, rfl, Nat.le_of_ble_eq_true rfl⟩
theorem EncodedForm.bne (rel : Byte) : EncodedForm.Statement (.bne rel) :=
  ⟨_, _, rfl, rfl, Nat.le_of_ble_eq_true rfl⟩
theorem EncodedForm.beq (rel : Byte) : EncodedForm.Statement (.beq rel) :=
  ⟨_, _, rfl, rfl, Nat.le_of_ble_eq_true rfl⟩
theorem EncodedForm.jmpAbs (w : Word) : EncodedForm.Statement (.jmpAbs w) :=
  ⟨_, _, rfl, rfl, Nat.le_of_ble_eq_true rfl⟩
theorem EncodedForm.jmpInd (w : Word) : EncodedForm.Statement (.jmpInd w) :=
  ⟨_, _, rfl, rfl, Nat.le_of_ble_eq_true rfl⟩
theorem EncodedForm.jsr (w : Word) : EncodedForm.Statement (.jsr w) :=
  ⟨_, _, rfl, rfl, Nat.le_of_ble_eq_true rfl⟩
theorem EncodedForm.rts : EncodedForm.Statement .rts :=
  ⟨_, _, rfl, rfl, Nat.le_of_ble_eq_true rfl⟩
theorem EncodedForm.brk : EncodedForm.Statement .brk :=
  ⟨_, _, rfl, rfl, Nat.le_of_ble_eq_true rfl⟩
theorem EncodedForm.rti : EncodedForm.Statement .rti :=
  ⟨_, _, rfl, rfl, Nat.le_of_ble_eq_true rfl⟩

end Sys2Proof.Laws
end

