-- ==== Sys2Proof/Laws/Step.lean ====
section
/-!
SUPPORT. What the fetch can do, and what a step of a running core can do: one of two cases.
-/
namespace Sys2Proof.Machine

variable (s : State)

/-- Fetching a byte moves PC and leaves everything else but the count of hook calls. -/
theorem fetchByte_state : ∃ n, (fetchByte s).state = (s.setPc (s.pc + 1#16)).setHookCalls n ∧ s.hookCalls ≤ n := by
  obtain ⟨n, hn, hle⟩ := memRead_state s s.pc
  refine ⟨n, ?_, hle⟩
  simp only [fetchByte, hn]; rfl

/-- An illegal opcode byte is the byte read at PC, and only the count of hook calls has changed (40_execution.md R86). -/
theorem fetch_illegal {byte : Byte} {t : State} (h : fetch s = .illegal byte t) :
    byte = (memRead s s.pc).value ∧ t = (memRead s s.pc).state := by
  dsimp only [fetch] at h
  split at h <;> first | (injection h with h1 h2; exact ⟨h1.symm, h2.symm⟩) | exact absurd h (by simp)

/-- The state an instruction executes in differs from the fetched one in PC and the count of hook calls only (R85). -/
theorem fetch_instr {i : Instr} {t : State} (h : fetch s = .instr i t) :
    ∃ pc n, t = (s.setPc pc).setHookCalls n ∧ s.hookCalls ≤ n := by
  obtain ⟨n0, h0, hle0⟩ := memRead_state s s.pc
  dsimp only [fetch] at h
  rw [h0] at h
  split at h
  · exact absurd h (by simp)
  · injection h with _ h2
    exact ⟨_, n0, h2.symm, hle0⟩
  · injection h with _ h2
    obtain ⟨n1, h1, hle1⟩ := fetchByte_state ((s.setHookCalls n0).setPc ((s.setHookCalls n0).pc + 1#16))
    rw [h1] at h2
    exact ⟨_, n1, h2.symm, Nat.le_trans hle0 hle1⟩
  · injection h with _ h2
    obtain ⟨n1, h1, hle1⟩ := fetchByte_state ((s.setHookCalls n0).setPc ((s.setHookCalls n0).pc + 1#16))
    rw [h1] at h2
    obtain ⟨n2, h3, hle2⟩ := fetchByte_state ((((s.setHookCalls n0).setPc ((s.setHookCalls n0).pc + 1#16)).setPc
      (((s.setHookCalls n0).setPc ((s.setHookCalls n0).pc + 1#16)).pc + 1#16)).setHookCalls n1)
    rw [h3] at h2
    exact ⟨_, n2, h2.symm, Nat.le_trans hle0 (Nat.le_trans hle1 hle2)⟩

/-- A step of a running core takes the exception, or executes the fetched instruction with PC at PC_next. -/
theorem step_running (h : s.status = .running) :
    (∃ byte t, fetch s = .illegal byte t ∧ step s = .next (takeIllegalOpcode t s.pc byte)) ∨
    (∃ i t, fetch s = .instr i t ∧ step s = exec i t) := by
  unfold step
  rw [h]
  cases hf : fetch s with
  | illegal byte t => exact .inl ⟨byte, t, rfl, rfl⟩
  | instr i t => exact .inr ⟨i, t, rfl, rfl⟩

end Sys2Proof.Machine
end

