-- ==== Sys2Proof/Tests/Slice0.lean ====
section
/-!
SUPPORT. The model's own tests. Every expected result is copied from spec/95_test_vectors.md, spec/30_encoding.md or
spec/opcode_table.json, or follows by hand from the rule cited. After them, one witness for each clause of a statement that has
hypotheses: a concrete state and operands that meet them together.
-/
namespace Sys2Proof.Tests
open Sys2Proof Sys2Proof.Machine

/-! ### The small state of a test -/

/-- Bytes written as numbers. -/
def code (ns : List Nat) : List Byte := ns.map (BitVec.ofNat 8)

/-- The state after reset() with an instruction stored at an address and PC there (95_test_vectors.md, Conventions). -/
def startAt (a : Word) (ns : List Nat) : State := placeBytes (State.reset.setPc a) a (code ns)

/-- The same at 0x0600. -/
def start (ns : List Nat) : State := startAt 0x0600#16 ns

/-- One byte of memory. -/
def poke (s : State) (a : Nat) (v : Nat) : State := s.setByte (BitVec.ofNat 16 a) (BitVec.ofNat 8 v)

/-- One byte of memory after a step, or as it stands. -/
def peek (s : State) (a : Nat) : Nat := (s.byteAt (BitVec.ofNat 16 a)).toNat

/-- The state one step later; a stop shows as a core that was never reset. -/
def after (s : State) : State :=
  match step s with
  | .next t => t
  | .fault _ => s.setStatus .unreset
  | .refused _ => s.setStatus .unreset

/-- Whether the step answers a next state. -/
def goesOn (s : State) : Bool :=
  match step s with
  | .next _ => true
  | .fault _ => false
  | .refused _ => false

theorem step_after {s : State} (h : goesOn s = true) : step s = .next (after s) := by
  unfold goesOn at h
  unfold after
  cases hs : step s <;> simp_all

/-- The state with other parameters. -/
def withCfg (s : State) (c : Config) : State := { s with cfg := c }

def signed16 : Config := { Config.standard with zpIndexMode := .signed16 }
def pageWrap : Config := { Config.standard with jmpIndPageWrap := true }
def sixCycles : Config := { Config.standard with jmpIndCycles := .six }
def allIndexed : Config := { Config.standard with penaltyScope := .allIndexed }
def trapping : Config := { Config.standard with trapped := [0x0300#16], hasReadHook := true, hasWriteHook := true }

/-! ### Well-formedness -/

theorem test_wellFormed_standard : Config.standard.wellFormed = true := by decide
theorem test_wellFormed_rising : ({ Config.standard with trapped := [0x0010#16, 0x0300#16] } : Config).wellFormed = true := by decide
theorem test_illFormed_repeated_address :
    ({ Config.standard with trapped := [0x0300#16, 0x0300#16] } : Config).wellFormed = false := by decide
theorem test_illFormed_falling_address :
    ({ Config.standard with trapped := [0x0300#16, 0x0010#16] } : Config).wellFormed = false := by decide
/-- 30_encoding.md R79: no operand value is reserved, so no instruction term is refused. -/
theorem test_wellFormed_instr : (Instr.jmpInd 0xFFFF#16).wellFormed = true := by decide
theorem test_memory_wf_refuses_zero_byte : Memory.wf [(0x10, 0x00#8)] = false := by decide
theorem test_memory_wf_refuses_unsorted : Memory.wf [(0x20, 0x01#8), (0x10, 0x01#8)] = false := by decide
theorem test_memory_wf_refuses_outside : Memory.wf [(65536, 0x01#8)] = false := by decide
theorem test_memory_write_zero_unlists : Memory.write [(0x10, 0x01#8)] 0x10 0x00#8 = [] := by decide

/-! ### Decoding: the rows of spec/opcode_table.json, high nibble by high nibble, operand bytes 0x34 and 0x12 -/

/-- What the decoder reads, when it uses every byte. -/
def readAll (ns : List Nat) : Option Instr :=
  match decode (code ns) with
  | .ok i [] => some i
  | .ok _ (_ :: _) => none
  | .illegalOpcode _ => none
  | .truncated => none

theorem test_decode_row_0 :
    [[0x00], [0x01, 0x34], [0x05, 0x34], [0x06, 0x34], [0x08], [0x09, 0x34], [0x0A], [0x0D, 0x34, 0x12], [0x0E, 0x34, 0x12]].map readAll =
      ([.brk, .oraIndX 0x34#8, .oraZp 0x34#8, .aslZp 0x34#8, .php, .oraImm 0x34#8, .aslA, .oraAbs 0x1234#16, .aslAbs 0x1234#16] : List Instr).map some := by decide
theorem test_decode_row_1 :
    [[0x10, 0x34], [0x11, 0x34], [0x15, 0x34], [0x16, 0x34], [0x18], [0x19, 0x34, 0x12], [0x1D, 0x34, 0x12], [0x1E, 0x34, 0x12]].map readAll =
      ([.bpl 0x34#8, .oraIndY 0x34#8, .oraZpX 0x34#8, .aslZpX 0x34#8, .clc, .oraAbsY 0x1234#16, .oraAbsX 0x1234#16, .aslAbsX 0x1234#16] : List Instr).map some := by decide
theorem test_decode_row_2 :
    [[0x20, 0x34, 0x12], [0x21, 0x34], [0x24, 0x34], [0x25, 0x34], [0x26, 0x34], [0x28], [0x29, 0x34], [0x2A], [0x2C, 0x34, 0x12], [0x2D, 0x34, 0x12], [0x2E, 0x34, 0x12]].map readAll =
      ([.jsr 0x1234#16, .andIndX 0x34#8, .bitZp 0x34#8, .andZp 0x34#8, .rolZp 0x34#8, .plp, .andImm 0x34#8, .rolA, .bitAbs 0x1234#16, .andAbs 0x1234#16, .rolAbs 0x1234#16] : List Instr).map some := by decide
theorem test_decode_row_3 :
    [[0x30, 0x34], [0x31, 0x34], [0x35, 0x34], [0x36, 0x34], [0x38], [0x39, 0x34, 0x12], [0x3D, 0x34, 0x12], [0x3E, 0x34, 0x12]].map readAll =
      ([.bmi 0x34#8, .andIndY 0x34#8, .andZpX 0x34#8, .rolZpX 0x34#8, .sec, .andAbsY 0x1234#16, .andAbsX 0x1234#16, .rolAbsX 0x1234#16] : List Instr).map some := by decide
theorem test_decode_row_4 :
    [[0x40], [0x41, 0x34], [0x45, 0x34], [0x46, 0x34], [0x48], [0x49, 0x34], [0x4A], [0x4C, 0x34, 0x12], [0x4D, 0x34, 0x12], [0x4E, 0x34, 0x12]].map readAll =
      ([.rti, .eorIndX 0x34#8, .eorZp 0x34#8, .lsrZp 0x34#8, .pha, .eorImm 0x34#8, .lsrA, .jmpAbs 0x1234#16, .eorAbs 0x1234#16, .lsrAbs 0x1234#16] : List Instr).map some := by decide
theorem test_decode_row_5 :
    [[0x50, 0x34], [0x51, 0x34], [0x55, 0x34], [0x56, 0x34], [0x58], [0x59, 0x34, 0x12], [0x5D, 0x34, 0x12], [0x5E, 0x34, 0x12]].map readAll =
      ([.bvc 0x34#8, .eorIndY 0x34#8, .eorZpX 0x34#8, .lsrZpX 0x34#8, .cli, .eorAbsY 0x1234#16, .eorAbsX 0x1234#16, .lsrAbsX 0x1234#16] : List Instr).map some := by decide
theorem test_decode_row_6 :
    [[0x60], [0x61, 0x34], [0x65, 0x34], [0x66, 0x34], [0x68], [0x69, 0x34], [0x6A], [0x6C, 0x34, 0x12], [0x6D, 0x34, 0x12], [0x6E, 0x34, 0x12]].map readAll =
      ([.rts, .adcIndX 0x34#8, .adcZp 0x34#8, .rorZp 0x34#8, .pla, .adcImm 0x34#8, .rorA, .jmpInd 0x1234#16, .adcAbs 0x1234#16, .rorAbs 0x1234#16] : List Instr).map some := by decide
theorem test_decode_row_7 :
    [[0x70, 0x34], [0x71, 0x34], [0x75, 0x34], [0x76, 0x34], [0x78], [0x79, 0x34, 0x12], [0x7D, 0x34, 0x12], [0x7E, 0x34, 0x12]].map readAll =
      ([.bvs 0x34#8, .adcIndY 0x34#8, .adcZpX 0x34#8, .rorZpX 0x34#8, .sei, .adcAbsY 0x1234#16, .adcAbsX 0x1234#16, .rorAbsX 0x1234#16] : List Instr).map some := by decide
theorem test_decode_row_8 :
    [[0x81, 0x34], [0x84, 0x34], [0x85, 0x34], [0x86, 0x34], [0x88], [0x8A], [0x8C, 0x34, 0x12], [0x8D, 0x34, 0x12], [0x8E, 0x34, 0x12]].map readAll =
      ([.staIndX 0x34#8, .styZp 0x34#8, .staZp 0x34#8, .stxZp 0x34#8, .dey, .txa, .styAbs 0x1234#16, .staAbs 0x1234#16, .stxAbs 0x1234#16] : List Instr).map some := by decide
theorem test_decode_row_9 :
    [[0x90, 0x34], [0x91, 0x34], [0x94, 0x34], [0x95, 0x34], [0x96, 0x34], [0x98], [0x99, 0x34, 0x12], [0x9A], [0x9D, 0x34, 0x12]].map readAll =
      ([.bcc 0x34#8, .staIndY 0x34#8, .styZpX 0x34#8, .staZpX 0x34#8, .stxZpY 0x34#8, .tya, .staAbsY 0x1234#16, .txs, .staAbsX 0x1234#16] : List Instr).map some := by decide
theorem test_decode_row_A :
    [[0xA0, 0x34], [0xA1, 0x34], [0xA2, 0x34], [0xA4, 0x34], [0xA5, 0x34], [0xA6, 0x34], [0xA8], [0xA9, 0x34], [0xAA], [0xAC, 0x34, 0x12], [0xAD, 0x34, 0x12], [0xAE, 0x34, 0x12]].map readAll =
      ([.ldyImm 0x34#8, .ldaIndX 0x34#8, .ldxImm 0x34#8, .ldyZp 0x34#8, .ldaZp 0x34#8, .ldxZp 0x34#8, .tay, .ldaImm 0x34#8, .tax, .ldyAbs 0x1234#16, .ldaAbs 0x1234#16, .ldxAbs 0x1234#16] : List Instr).map some := by decide
theorem test_decode_row_B :
    [[0xB0, 0x34], [0xB1, 0x34], [0xB4, 0x34], [0xB5, 0x34], [0xB6, 0x34], [0xB8], [0xB9, 0x34, 0x12], [0xBA], [0xBC, 0x34, 0x12], [0xBD, 0x34, 0x12], [0xBE, 0x34, 0x12]].map readAll =
      ([.bcs 0x34#8, .ldaIndY 0x34#8, .ldyZpX 0x34#8, .ldaZpX 0x34#8, .ldxZpY 0x34#8, .clv, .ldaAbsY 0x1234#16, .tsx, .ldyAbsX 0x1234#16, .ldaAbsX 0x1234#16, .ldxAbsY 0x1234#16] : List Instr).map some := by decide
theorem test_decode_row_C :
    [[0xC0, 0x34], [0xC1, 0x34], [0xC4, 0x34], [0xC5, 0x34], [0xC6, 0x34], [0xC8], [0xC9, 0x34], [0xCA], [0xCC, 0x34, 0x12], [0xCD, 0x34, 0x12], [0xCE, 0x34, 0x12]].map readAll =
      ([.cpyImm 0x34#8, .cmpIndX 0x34#8, .cpyZp 0x34#8, .cmpZp 0x34#8, .decZp 0x34#8, .iny, .cmpImm 0x34#8, .dex, .cpyAbs 0x1234#16, .cmpAbs 0x1234#16, .decAbs 0x1234#16] : List Instr).map some := by decide
theorem test_decode_row_D :
    [[0xD0, 0x34], [0xD1, 0x34], [0xD5, 0x34], [0xD6, 0x34], [0xD8], [0xD9, 0x34, 0x12], [0xDD, 0x34, 0x12], [0xDE, 0x34, 0x12]].map readAll =
      ([.bne 0x34#8, .cmpIndY 0x34#8, .cmpZpX 0x34#8, .decZpX 0x34#8, .cld, .cmpAbsY 0x1234#16, .cmpAbsX 0x1234#16, .decAbsX 0x1234#16] : List Instr).map some := by decide
theorem test_decode_row_E :
    [[0xE0, 0x34], [0xE1, 0x34], [0xE4, 0x34], [0xE5, 0x34], [0xE6, 0x34], [0xE8], [0xE9, 0x34], [0xEA], [0xEC, 0x34, 0x12], [0xED, 0x34, 0x12], [0xEE, 0x34, 0x12]].map readAll =
      ([.cpxImm 0x34#8, .sbcIndX 0x34#8, .cpxZp 0x34#8, .sbcZp 0x34#8, .incZp 0x34#8, .inx, .sbcImm 0x34#8, .nop, .cpxAbs 0x1234#16, .sbcAbs 0x1234#16, .incAbs 0x1234#16] : List Instr).map some := by decide
theorem test_decode_row_F :
    [[0xF0, 0x34], [0xF1, 0x34], [0xF5, 0x34], [0xF6, 0x34], [0xF8], [0xF9, 0x34, 0x12], [0xFD, 0x34, 0x12], [0xFE, 0x34, 0x12]].map readAll =
      ([.beq 0x34#8, .sbcIndY 0x34#8, .sbcZpX 0x34#8, .incZpX 0x34#8, .sed, .sbcAbsY 0x1234#16, .sbcAbsX 0x1234#16, .incAbsX 0x1234#16] : List Instr).map some := by decide

/-! One instruction of each family, its opcode written bit by bit (30_encoding.md, section 4), as the table numbers its bits. -/

theorem test_bits_lda_immediate : decode [0b10101001#8, 0x80#8] = .ok (.ldaImm 0x80#8) [] := by decide
theorem test_bits_adc_immediate : decode [0b01101001#8, 0x01#8] = .ok (.adcImm 0x01#8) [] := by decide
theorem test_bits_bit_absolute : decode [0b00101100#8, 0x00#8, 0x02#8] = .ok (.bitAbs 0x0200#16) [] := by decide
theorem test_bits_php : decode [0b00001000#8] = .ok .php [] := by decide
theorem test_bits_bne : decode [0b11010000#8, 0xF8#8] = .ok (.bne 0xF8#8) [] := by decide
theorem test_table_word_operands_above : decodeTableWord 24 0x30FF6C = some (.jmpInd 0x30FF#16) := by decide
theorem test_table_word_short : decodeTableWord 8 0x4C = some (.jmpAbs 0x0000#16) := by decide
theorem test_table_word_illegal : decodeTableWord 8 0x02 = none := by decide
theorem test_decode_illegal : decode [0xFF#8, 0x00#8] = .illegalOpcode 0xFF#8 := by decide
theorem test_decode_truncated : decode [0x4C#8, 0x00#8] = .truncated := by decide
theorem test_decode_leaves_rest : decode [0xEA#8, 0x02#8] = .ok .nop [0x02#8] := by decide

/-! ### Base cycles: the table's column, with no page crossed, F = 0x24 (so BPL, BVC, BCC and BNE are taken, +1) -/

theorem test_cycles_row_0 :
    [0x00, 0x01, 0x05, 0x06, 0x08, 0x09, 0x0A, 0x0D, 0x0E].map (fun op => (after (start [op, 0x10, 0x02])).tickcount) =
      [7, 6, 3, 5, 3, 2, 2, 4, 6] := by decide
theorem test_cycles_row_1 :
    [0x10, 0x11, 0x15, 0x16, 0x18, 0x19, 0x1D, 0x1E].map (fun op => (after (start [op, 0x10, 0x02])).tickcount) =
      [3, 5, 4, 6, 2, 4, 4, 7] := by decide
theorem test_cycles_row_2 :
    [0x20, 0x21, 0x24, 0x25, 0x26, 0x28, 0x29, 0x2A, 0x2C, 0x2D, 0x2E].map (fun op => (after (start [op, 0x10, 0x02])).tickcount) =
      [6, 6, 3, 3, 5, 4, 2, 2, 4, 4, 6] := by decide
theorem test_cycles_row_3 :
    [0x30, 0x31, 0x35, 0x36, 0x38, 0x39, 0x3D, 0x3E].map (fun op => (after (start [op, 0x10, 0x02])).tickcount) =
      [2, 5, 4, 6, 2, 4, 4, 7] := by decide
theorem test_cycles_row_4 :
    [0x40, 0x41, 0x45, 0x46, 0x48, 0x49, 0x4A, 0x4C, 0x4D, 0x4E].map (fun op => (after (start [op, 0x10, 0x02])).tickcount) =
      [6, 6, 3, 5, 3, 2, 2, 3, 4, 6] := by decide
theorem test_cycles_row_5 :
    [0x50, 0x51, 0x55, 0x56, 0x58, 0x59, 0x5D, 0x5E].map (fun op => (after (start [op, 0x10, 0x02])).tickcount) =
      [3, 5, 4, 6, 2, 4, 4, 7] := by decide
theorem test_cycles_row_6 :
    [0x60, 0x61, 0x65, 0x66, 0x68, 0x69, 0x6A, 0x6C, 0x6D, 0x6E].map (fun op => (after (start [op, 0x10, 0x02])).tickcount) =
      [6, 6, 3, 5, 4, 2, 2, 5, 4, 6] := by decide
theorem test_cycles_row_7 :
    [0x70, 0x71, 0x75, 0x76, 0x78, 0x79, 0x7D, 0x7E].map (fun op => (after (start [op, 0x10, 0x02])).tickcount) =
      [2, 5, 4, 6, 2, 4, 4, 7] := by decide
theorem test_cycles_row_8 :
    [0x81, 0x84, 0x85, 0x86, 0x88, 0x8A, 0x8C, 0x8D, 0x8E].map (fun op => (after (start [op, 0x10, 0x02])).tickcount) =
      [6, 3, 3, 3, 2, 2, 4, 4, 4] := by decide
theorem test_cycles_row_9 :
    [0x90, 0x91, 0x94, 0x95, 0x96, 0x98, 0x99, 0x9A, 0x9D].map (fun op => (after (start [op, 0x10, 0x02])).tickcount) =
      [3, 6, 4, 4, 4, 2, 5, 2, 5] := by decide
theorem test_cycles_row_A :
    [0xA0, 0xA1, 0xA2, 0xA4, 0xA5, 0xA6, 0xA8, 0xA9, 0xAA, 0xAC, 0xAD, 0xAE].map (fun op => (after (start [op, 0x10, 0x02])).tickcount) =
      [2, 6, 2, 3, 3, 3, 2, 2, 2, 4, 4, 4] := by decide
theorem test_cycles_row_B :
    [0xB0, 0xB1, 0xB4, 0xB5, 0xB6, 0xB8, 0xB9, 0xBA, 0xBC, 0xBD, 0xBE].map (fun op => (after (start [op, 0x10, 0x02])).tickcount) =
      [2, 5, 4, 4, 4, 2, 4, 2, 4, 4, 4] := by decide
theorem test_cycles_row_C :
    [0xC0, 0xC1, 0xC4, 0xC5, 0xC6, 0xC8, 0xC9, 0xCA, 0xCC, 0xCD, 0xCE].map (fun op => (after (start [op, 0x10, 0x02])).tickcount) =
      [2, 6, 3, 3, 5, 2, 2, 2, 4, 4, 6] := by decide
theorem test_cycles_row_D :
    [0xD0, 0xD1, 0xD5, 0xD6, 0xD8, 0xD9, 0xDD, 0xDE].map (fun op => (after (start [op, 0x10, 0x02])).tickcount) =
      [3, 5, 4, 6, 2, 4, 4, 7] := by decide
theorem test_cycles_row_E :
    [0xE0, 0xE1, 0xE4, 0xE5, 0xE6, 0xE8, 0xE9, 0xEA, 0xEC, 0xED, 0xEE].map (fun op => (after (start [op, 0x10, 0x02])).tickcount) =
      [2, 6, 3, 3, 5, 2, 2, 2, 4, 4, 6] := by decide
theorem test_cycles_row_F :
    [0xF0, 0xF1, 0xF5, 0xF6, 0xF8, 0xF9, 0xFD, 0xFE].map (fun op => (after (start [op, 0x10, 0x02])).tickcount) =
      [2, 5, 4, 6, 2, 4, 4, 7] := by decide


/-! ### Addressing modes and memory (95_test_vectors.md, section 2.1 and V4) -/

theorem test_indX_pointer_wraps :
    (let t := after (poke (poke (poke ((start [0xA1, 0xFE]).setX 0x01#8) 0xFF 0x34) 0x00 0x12) 0x1234 0x55); (t.a, t.f, t.pc, t.tickcount)) =
      (0x55#8, 0x24#8, 0x0602#16, 6) := by decide
theorem test_indY_pointer_at_ff :
    (let t := after (poke (poke (poke (start [0xB1, 0xFF]) 0xFF 0x00) 0x00 0x03) 0x0300 0x99); (t.a, t.f, t.pc, t.tickcount)) =
      (0x99#8, 0xA4#8, 0x0602#16, 5) := by decide
theorem test_indY_crossing :
    (let t := after (poke (poke (poke ((start [0xB1, 0x40]).setY 0x10#8) 0x40 0xF8) 0x41 0x02) 0x0308 0x7E); (t.a, t.tickcount)) =
      (0x7E#8, 6) := by decide
theorem test_zpX_leaves_zero_page :
    ((let t := after (poke (poke ((start [0xB5, 0xF0]).setX 0x20#8) 0x0010 0x11) 0x0110 0x22); (t.a, t.tickcount)) = (0x11#8, 4)) ∧
      ((let t := after (withCfg (poke (poke ((start [0xB5, 0xF0]).setX 0x20#8) 0x0010 0x11) 0x0110 0x22) signed16); (t.a, t.tickcount)) = (0x22#8, 4)) := by decide
theorem test_zpX_high_index :
    ((let t := after (poke (poke ((start [0xB5, 0x05]).setX 0xF0#8) 0x00F5 0x11) 0xFFF5 0x22); t.a) = 0x11#8) ∧
      ((let t := after (withCfg (poke (poke ((start [0xB5, 0x05]).setX 0xF0#8) 0x00F5 0x11) 0xFFF5 0x22) signed16); t.a) = 0x22#8) := by decide
theorem test_ldx_zpY_wraps :
    (let t := after (poke ((start [0xB6, 0xFF]).setY 0x02#8) 0x0001 0x80); (t.x, t.f, t.tickcount)) =
      (0x80#8, 0xA4#8, 4) := by decide
theorem test_lda_absY_wraps :
    (let t := after (poke ((start [0xB9, 0xFF, 0xFF]).setY 0x02#8) 0x0001 0x42); (t.a, t.tickcount)) =
      (0x42#8, 5) := by decide
theorem test_lda_abs_at_top :
    (let t := after (poke (start [0xAD, 0xFF, 0xFF]) 0xFFFF 0x42); (t.a, t.pc, t.tickcount)) =
      (0x42#8, 0x0603#16, 4) := by decide
theorem test_lda_absX_no_crossing :
    (let t := after (poke ((start [0xBD, 0x00, 0x02]).setX 0x10#8) 0x0210 0x01); (t.a, t.tickcount)) =
      (0x01#8, 4) := by decide
theorem test_lda_absX_crossing :
    (let t := after (poke ((start [0xBD, 0xF8, 0x02]).setX 0x10#8) 0x0308 0x01); (t.a, t.tickcount)) =
      (0x01#8, 5) := by decide
theorem test_fetch_straddles_top :
    (let t := after (startAt 0xFFFE#16 [0x4C, 0x00, 0x06]); (t.pc, t.tickcount)) =
      (0x0600#16, 3) := by decide
theorem test_pc_wraps :
    (let t := after (startAt 0xFFFF#16 [0xEA]); (t.pc, t.tickcount)) =
      (0x0000#16, 2) := by decide
theorem test_jmp_indirect_both_P2 :
    ((let t := after (poke (poke (poke (start [0x6C, 0xFF, 0x30]) 0x30FF 0x80) 0x3100 0x50) 0x3000 0x40); (t.pc, t.tickcount)) = (0x5080#16, 5)) ∧
      ((let t := after (withCfg (poke (poke (poke (start [0x6C, 0xFF, 0x30]) 0x30FF 0x80) 0x3100 0x50) 0x3000 0x40) pageWrap); (t.pc, t.tickcount)) = (0x4080#16, 5)) := by decide
theorem test_jmp_indirect_six :
    (let t := after (withCfg (poke (poke (start [0x6C, 0x00, 0x30]) 0x3000 0x00) 0x3001 0x06) sixCycles); (t.pc, t.tickcount)) =
      (0x0600#16, 6) := by decide

/-! ### Loads, stores and transfers (section 2.2) -/

theorem test_lda_zero :
    (let t := after (start [0xA9, 0x00]); (t.a, t.f, t.tickcount)) =
      (0x00#8, 0x26#8, 2) := by decide
theorem test_lda_negative :
    (let t := after (start [0xA9, 0x80]); (t.a, t.f, t.tickcount)) =
      (0x80#8, 0xA4#8, 2) := by decide
theorem test_ldx_imm :
    (let t := after (start [0xA2, 0x05]); (t.x, t.f, t.pc)) =
      (0x05#8, 0x24#8, 0x0602#16) := by decide
theorem test_ldy_absX_crossing :
    (let t := after (poke ((start [0xBC, 0xFF, 0x00]).setX 0x01#8) 0x0100 0x00); (t.y, t.f, t.pc, t.tickcount)) =
      (0x00#8, 0x26#8, 0x0603#16, 5) := by decide
theorem test_sta_absY_readsOnly :
    (let t := after (((start [0x99, 0xFF, 0x02]).setA 0x41#8).setY 0x01#8); (peek t 0x0300, t.tickcount)) =
      (0x41, 5) := by decide
theorem test_sta_absY_allIndexed :
    (let t := after (withCfg (((start [0x99, 0xFF, 0x02]).setA 0x41#8).setY 0x01#8) allIndexed); (peek t 0x0300, t.tickcount)) =
      (0x41, 6) := by decide
theorem test_sta_indY :
    (let t := after (poke (poke (((start [0x91, 0x40]).setA 0x5A#8).setY 0x10#8) 0x40 0xF8) 0x41 0x02); (peek t 0x0308, t.f, t.tickcount)) =
      (0x5A, 0x24#8, 6) := by decide
theorem test_sta_indX :
    (let t := after (poke (poke (((start [0x81, 0xFE]).setA 0x5A#8).setX 0x01#8) 0xFF 0x34) 0x00 0x12); (peek t 0x1234, t.tickcount)) =
      (0x5A, 6) := by decide
theorem test_stx_zpY_wraps :
    (let t := after (((start [0x96, 0xFE]).setX 0x77#8).setY 0x03#8); (peek t 0x0001, t.tickcount)) =
      (0x77, 4) := by decide
theorem test_sty_abs :
    (let t := after ((start [0x8C, 0x34, 0x12]).setY 0x80#8); (peek t 0x1234, t.f, t.tickcount)) =
      (0x80, 0x24#8, 4) := by decide
theorem test_tax :
    (let t := after ((start [0xAA]).setA 0x80#8); (t.x, t.f)) =
      (0x80#8, 0xA4#8) := by decide
theorem test_tay :
    (let t := after ((start [0xA8]).setA 0x80#8); (t.y, t.a)) =
      (0x80#8, 0x80#8) := by decide
theorem test_txa :
    (let t := after (((start [0x8A]).setX 0x00#8).setA 0x01#8); (t.a, t.f)) =
      (0x00#8, 0x26#8) := by decide
theorem test_tya :
    (let t := after ((start [0x98]).setY 0x81#8); (t.a, t.f)) =
      (0x81#8, 0xA4#8) := by decide
theorem test_tsx_zero :
    (let t := after ((start [0xBA]).setSp 0x00#8); (t.x, t.f, t.tickcount)) =
      (0x00#8, 0x26#8, 2) := by decide
theorem test_txs_no_flags :
    (let t := after ((start [0x9A]).setX 0x00#8); (t.sp, t.f, t.tickcount)) =
      (0x00#8, 0x24#8, 2) := by decide

/-! ### Arithmetic and compare (section 2.3, V3, V5, V6) -/

theorem test_adc_binary :
    ((let t := after (((start [0x69, 0x00]).setA 0xFF#8).setF 0x25#8); (t.a, t.f)) = (0x00#8, 0x27#8)) ∧
      ((let t := after ((start [0x69, 0x80]).setA 0x80#8); (t.a, t.f)) = (0x00#8, 0x67#8)) := by decide
theorem test_sbc_binary :
    ((let t := after (((start [0xE9, 0x01]).setA 0x00#8).setF 0x25#8); (t.a, t.f)) = (0xFF#8, 0xA4#8)) ∧
      ((let t := after (((start [0xE9, 0x01]).setA 0x80#8).setF 0x25#8); (t.a, t.f)) = (0x7F#8, 0x65#8)) := by decide
theorem test_add_hex_7f_01 : addHex 0x7F#8 0x01#8 false = { value := 0x80#8, carry := false, overflow := true } := by decide
theorem test_add_hex_ff_ff : addHex 0xFF#8 0xFF#8 false = { value := 0xFE#8, carry := true, overflow := false } := by decide
theorem test_subtract_hex_05_05 :
    subtractHex 0x05#8 0x05#8 false = { value := 0xFF#8, carry := false, overflow := false } := by decide
theorem test_subtract_hex_50_b0 :
    subtractHex 0x50#8 0xB0#8 true = { value := 0xA0#8, carry := false, overflow := true } := by decide
theorem test_add_decimal_15_28 : addDecimal 0x15#8 0x28#8 false = { value := 0x43#8, carry := false } := by decide
theorem test_add_decimal_45_55 : addDecimal 0x45#8 0x55#8 false = { value := 0x00#8, carry := true } := by decide
theorem test_add_decimal_99_01 : addDecimal 0x99#8 0x01#8 true = { value := 0x01#8, carry := true } := by decide
theorem test_add_decimal_clamps : addDecimal 0x0F#8 0x01#8 false = { value := 0x10#8, carry := false } := by decide
theorem test_subtract_decimal_43_44 : subtractDecimal 0x43#8 0x44#8 true = { value := 0x99#8, carry := false } := by decide
theorem test_subtract_decimal_40_13 : subtractDecimal 0x40#8 0x13#8 true = { value := 0x27#8, carry := true } := by decide
theorem test_subtract_decimal_00_01 : subtractDecimal 0x00#8 0x01#8 true = { value := 0x99#8, carry := false } := by decide
theorem test_adc_decimal_mode :
    (let t := after (((start [0x69, 0x28]).setA 0x15#8).setF 0x2C#8); (t.a, t.tickcount)) =
      (0x43#8, 2) := by decide
theorem test_sbc_decimal_mode :
    (let t := after (((start [0xE9, 0x44]).setA 0x43#8).setF 0x2D#8); (t.a, t.tickcount)) =
      (0x99#8, 2) := by decide
theorem test_cmp_below :
    (let t := after ((start [0xC9, 0x20]).setA 0x10#8); t.f) =
      0xA4#8 := by decide
theorem test_cmp_binary_in_every_mode :
    ((let t := after (((start [0xC9, 0x42]).setA 0x42#8).setF 0x2C#8); (t.f, t.a)) = (0x2F#8, 0x42#8)) ∧
      ((let t := after ((start [0xC9, 0x01]).setA 0x80#8); t.f) = 0x25#8) := by decide
theorem test_cpx_equal :
    (let t := after (start [0xE0, 0x00]); t.f) =
      0x27#8 := by decide
theorem test_cpy_below :
    (let t := after (poke ((start [0xC4, 0x10]).setY 0x05#8) 0x10 0x06); (t.f, t.tickcount)) =
      (0xA4#8, 3) := by decide
theorem test_inc_wraps :
    (let t := after (poke (start [0xE6, 0x10]) 0x10 0xFF); (peek t 0x0010, t.f, t.tickcount)) =
      (0x00, 0x26#8, 5) := by decide
theorem test_dec_absX :
    (let t := after (poke ((start [0xDE, 0xFF, 0x02]).setX 0x01#8) 0x0300 0x00); (peek t 0x0300, t.f, t.tickcount)) =
      (0xFF, 0xA4#8, 7) := by decide
theorem test_dec_absX_allIndexed :
    (let t := after (withCfg ((start [0xDE, 0xFF, 0x02]).setX 0x01#8) allIndexed); (peek t 0x0300, t.tickcount)) =
      (0xFF, 8) := by decide
theorem test_inx_wraps :
    (let t := after ((start [0xE8]).setX 0xFF#8); (t.x, t.f)) =
      (0x00#8, 0x26#8) := by decide
theorem test_iny :
    (let t := after ((start [0xC8]).setY 0x7F#8); (t.y, t.f)) =
      (0x80#8, 0xA4#8) := by decide
theorem test_dex :
    (let t := after ((start [0xCA]).setX 0x01#8); (t.x, t.f)) =
      (0x00#8, 0x26#8) := by decide
theorem test_dey_wraps :
    (let t := after (start [0x88]); (t.y, t.f)) =
      (0xFF#8, 0xA4#8) := by decide

/-! ### Logic, bit test, shifts (section 2.4, V9) -/

theorem test_and_zero :
    (let t := after ((start [0x29, 0x0F]).setA 0xF0#8); (t.a, t.f)) =
      (0x00#8, 0x26#8) := by decide
theorem test_ora_negative :
    (let t := after ((start [0x09, 0x80]).setA 0x01#8); (t.a, t.f)) =
      (0x81#8, 0xA4#8) := by decide
theorem test_eor_self :
    (let t := after ((start [0x49, 0xFF]).setA 0xFF#8); (t.a, t.f)) =
      (0x00#8, 0x26#8) := by decide
theorem test_bit_sets :
    (let t := after (poke ((start [0x24, 0x10]).setA 0x01#8) 0x10 0xC0); (t.a, t.f)) =
      (0x01#8, 0xE6#8) := by decide
theorem test_bit_clears :
    (let t := after (poke (((start [0x2C, 0x00, 0x02]).setA 0xFF#8).setF 0xE5#8) 0x0200 0x01); t.f) =
      0x25#8 := by decide
theorem test_asl_a :
    (let t := after ((start [0x0A]).setA 0x80#8); (t.a, t.f)) =
      (0x00#8, 0x27#8) := by decide
theorem test_asl_zp :
    (let t := after (poke (start [0x06, 0x10]) 0x10 0x40); (peek t 0x0010, t.f, t.tickcount)) =
      (0x80, 0xA4#8, 5) := by decide
theorem test_lsr_a :
    (let t := after ((start [0x4A]).setA 0x01#8); (t.a, t.f)) =
      (0x00#8, 0x27#8) := by decide
theorem test_rol_a_carry_clear :
    (let t := after ((start [0x2A]).setA 0x80#8); (t.a, t.f)) =
      (0x00#8, 0x27#8) := by decide
theorem test_rol_a_carry_set :
    (let t := after (((start [0x2A]).setA 0x80#8).setF 0x25#8); (t.a, t.f)) =
      (0x01#8, 0x25#8) := by decide
theorem test_ror_a :
    (let t := after ((start [0x6A]).setF 0x25#8); (t.a, t.f)) =
      (0x80#8, 0xA4#8) := by decide
theorem test_ror_absX :
    (let t := after (poke (((start [0x7E, 0x00, 0x02]).setX 0x05#8).setF 0x25#8) 0x0205 0x02); (peek t 0x0205, t.f, t.tickcount)) =
      (0x81, 0xA4#8, 7) := by decide

/-! ### Stack and flags (section 2.5) -/

theorem test_pha_at_zero :
    (let t := after (((start [0x48]).setA 0x41#8).setSp 0x00#8); (peek t 0x0100, t.sp, t.tickcount)) =
      (0x41, 0xFF#8, 3) := by decide
theorem test_php :
    (let t := after ((start [0x08]).setF 0x25#8); (peek t 0x01FF, t.sp, t.f)) =
      (0x35, 0xFE#8, 0x25#8) := by decide
theorem test_pla_at_ff :
    (let t := after (poke (start [0x68]) 0x0100 0x80); (t.a, t.sp, t.f, t.tickcount)) =
      (0x80#8, 0x00#8, 0xA4#8, 4) := by decide
theorem test_plp_ff :
    (let t := after (poke ((start [0x28]).setSp 0xFE#8) 0x01FF 0xFF); (t.f, t.sp)) =
      (0xEF#8, 0xFF#8) := by decide
theorem test_plp_00 :
    (let t := after ((start [0x28]).setSp 0xFE#8); t.f) =
      0x20#8 := by decide
theorem test_clc :
    (let t := after ((start [0x18]).setF 0x25#8); (t.f, t.tickcount)) =
      (0x24#8, 2) := by decide
theorem test_sec :
    (let t := after ((start [0x38]).setF 0x24#8); (t.f, t.tickcount)) =
      (0x25#8, 2) := by decide
theorem test_cli :
    (let t := after ((start [0x58]).setF 0x24#8); (t.f, t.tickcount)) =
      (0x20#8, 2) := by decide
theorem test_sei :
    (let t := after ((start [0x78]).setF 0x20#8); (t.f, t.tickcount)) =
      (0x24#8, 2) := by decide
theorem test_cld :
    (let t := after ((start [0xD8]).setF 0x2C#8); (t.f, t.tickcount)) =
      (0x24#8, 2) := by decide
theorem test_sed :
    (let t := after ((start [0xF8]).setF 0x24#8); (t.f, t.tickcount)) =
      (0x2C#8, 2) := by decide
theorem test_clv :
    (let t := after ((start [0xB8]).setF 0x64#8); (t.f, t.tickcount)) =
      (0x24#8, 2) := by decide
theorem test_nop :
    (let t := after (start [0xEA]); (t.pc, t.f, t.tickcount)) =
      (0x0601#16, 0x24#8, 2) := by decide

/-! ### Control (section 2.6, V7) -/

theorem test_bne_not_taken :
    (let t := after ((start [0xD0, 0x10]).setF 0x26#8); (t.pc, t.tickcount)) =
      (0x0602#16, 2) := by decide
theorem test_bne_taken :
    (let t := after (start [0xD0, 0x10]); (t.pc, t.tickcount)) =
      (0x0612#16, 3) := by decide
theorem test_bvs_crossing :
    (let t := after ((startAt 0x06F0#16 [0x70, 0x10]).setF 0x64#8); (t.pc, t.tickcount)) =
      (0x0702#16, 4) := by decide
theorem test_bvc_not_taken :
    (let t := after ((start [0x50, 0x10]).setF 0x64#8); (t.pc, t.tickcount)) =
      (0x0602#16, 2) := by decide
theorem test_bcc_backwards_crossing :
    (let t := after (start [0x90, 0x80]); (t.pc, t.tickcount)) =
      (0x0582#16, 4) := by decide
theorem test_bcs_taken :
    (let t := after ((start [0xB0, 0x10]).setF 0x25#8); (t.pc, t.tickcount)) =
      (0x0612#16, 3) := by decide
theorem test_beq_to_itself :
    (let t := after ((start [0xF0, 0xFE]).setF 0x26#8); (t.pc, t.tickcount)) =
      (0x0600#16, 3) := by decide
theorem test_beq_wraps :
    (let t := after ((startAt 0xFFF0#16 [0xF0, 0x7F]).setF 0x26#8); (t.pc, t.tickcount)) =
      (0x0071#16, 4) := by decide
theorem test_bpl_not_taken :
    (let t := after ((start [0x10, 0x10]).setF 0xA4#8); (t.pc, t.tickcount)) =
      (0x0602#16, 2) := by decide
theorem test_bmi_taken :
    (let t := after ((start [0x30, 0x10]).setF 0xA4#8); (t.pc, t.tickcount)) =
      (0x0612#16, 3) := by decide
theorem test_jsr :
    (let t := after (start [0x20, 0x10, 0x06]); (t.sp, peek t 0x01FF, peek t 0x01FE, t.pc, t.tickcount)) =
      (0xFD#8, 0x06, 0x02, 0x0610#16, 6) := by decide
theorem test_jsr_at_zero :
    (let t := after ((start [0x20, 0x10, 0x06]).setSp 0x00#8); (peek t 0x0100, peek t 0x01FF, t.sp, t.pc, t.tickcount)) =
      (0x06, 0x02, 0xFE#8, 0x0610#16, 6) := by decide
theorem test_rts :
    (let t := after (poke (poke ((start [0x60]).setSp 0xFD#8) 0x01FE 0x02) 0x01FF 0x06); (t.pc, t.sp, t.tickcount)) =
      (0x0603#16, 0xFF#8, 6) := by decide
theorem test_rts_ffff :
    (let t := after (poke (poke ((start [0x60]).setSp 0xFD#8) 0x01FE 0xFF) 0x01FF 0xFF); (t.pc, t.sp, t.tickcount)) =
      (0x0000#16, 0xFF#8, 6) := by decide
theorem test_brk :
    (let t := after (poke (poke (start [0x00]) 0xFFFE 0x00) 0xFFFF 0x07); (peek t 0x01FF, peek t 0x01FE, peek t 0x01FD, t.sp, t.f, t.pc, t.tickcount)) =
      (0x06, 0x02, 0x34, 0xFC#8, 0x24#8, 0x0700#16, 7) := by decide
theorem test_brk_keeps_d :
    (let t := after (poke (poke ((start [0x00]).setF 0xE9#8) 0xFFFE 0x00) 0xFFFF 0x07); (peek t 0x01FD, t.f, t.pc, t.tickcount)) =
      (0xF9, 0xED#8, 0x0700#16, 7) := by decide
theorem test_rti :
    (let t := after (poke (poke (poke ((start [0x40]).setSp 0xFC#8) 0x01FD 0x34) 0x01FE 0x02) 0x01FF 0x06); (t.f, t.pc, t.sp, t.tickcount)) =
      (0x24#8, 0x0602#16, 0xFF#8, 6) := by decide
theorem test_rti_forces_bits :
    (let t := after (poke (poke (poke ((start [0x40]).setSp 0xFC#8) 0x01FD 0xFF) 0x01FE 0x02) 0x01FF 0x06); (t.f, t.pc)) =
      (0xEF#8, 0x0602#16) := by decide

/-! ### Faults, the run loop and the host (section 2.7, V1) -/

/-- The opcode byte 0x02 at 0x0600 with A = 0x12. -/
def illegal02 : State := (start [0x02]).setA 0x12#8

/-- Three NOPs and more. -/
def nops : State := start [0xEA, 0xEA, 0xEA, 0xEA, 0xEA]

/-- A core that met 0x02 at 0x0601. -/
def faulted : State := (start [0xE8, 0x02]).setStatus (.faulted 0x0601#16 0x02#8)

theorem test_illegal_byte : step illegal02 = .next (illegal02.setStatus (.faulted 0x0600#16 0x02#8)) := rfl
theorem test_illegal_byte_ff :
    step (start [0xFF]) = .next ((start [0xFF]).setStatus (.faulted 0x0600#16 0xFF#8)) := rfl
theorem test_faulted_has_no_step : step faulted = .fault (.illegalOpcode 0x0601#16 0x02#8) := rfl
theorem test_step_before_reset : step (nops.setStatus .unreset) = .refused .beforeReset := rfl

/-- PC and tickcount of a run that returned Ok. -/
def okAt : RunEnd → Option (Word × Nat)
  | .ok s => some (s.pc, s.tickcount)
  | .err _ _ _ => none
  | .cancelled _ => none
  | .refused _ => none

theorem test_run_0 : okAt (runForTicks 0 10 nops) = some (0x0600#16, 0) := by decide
theorem test_run_1 : okAt (runForTicks 1 10 nops) = some (0x0601#16, 2) := by decide
theorem test_run_5_after :
    okAt (runForTicks 5 10 ((nops.setPc 0x0601#16).addTicks 2)) = some (0x0604#16, 8) := by decide
theorem test_run_into_illegal :
    (match runForTicks 100 10 (start [0xE8, 0x02]) with
     | .err pc byte s => some (pc, byte, s.x, s.pc, s.tickcount)
     | .ok _ => none
     | .cancelled _ => none
     | .refused _ => none) = some (0x0601#16, 0x02#8, 0x01#8, 0x0601#16, 2) := by decide
theorem test_run_faulted_0 : runForTicks 0 10 faulted = .ok faulted := by decide
theorem test_run_faulted_negative : runForTicks (-1) 10 faulted = .err 0x0601#16 0x02#8 faulted := by decide
theorem test_run_before_reset : runForTicks 1 10 (nops.setStatus .unreset) = .refused .beforeReset := by decide
theorem test_run_cancelled : runForTicks (-1) 0 nops = .cancelled nops := by decide
theorem test_resume : (resume faulted).status = .running := by decide

/-- V1: reset() from another state, with the vector at 0x0600; tickcount stays 72. -/
def beforeReset : State :=
  hostSetTickcount (poke (poke (((nops.setA 0x11#8).setSp 0x22#8).setF 0xFB#8) 0xFFFC 0x00) 0xFFFD 0x06) 72

theorem test_reset :
    (let t := hostReset beforeReset; (t.a, t.x, t.y, t.sp, t.pc, t.f, t.tickcount)) =
      (0x00#8, 0x00#8, 0x00#8, 0xFF#8, 0x0600#16, 0x24#8, 72) := by decide
theorem test_reset_of_faulted : (hostReset faulted).status = .running := by decide
theorem test_construct_is_unreset :
    step (construct [] Config.standard 0x11#8 0x22#8 0x33#8 0x44#8 0x55#8 0x6677#16) = .refused .beforeReset := rfl
/-- From State.reset with nothing placed, PC is 0x0000 and the byte there is 0x00, BRK. -/
theorem test_first_step_of_reset : (let t := after State.reset; (t.pc, t.sp, t.tickcount)) = (0x0000#16, 0xFC#8, 7) := by decide
theorem test_withFetchWord_runs : (after (State.reset.withFetchWord 16 0x80A9)).a = 0x80#8 := by decide
theorem test_write_hook_draws_once : (memWrite (withCfg nops trapping) 0x0300#16 0x01#8).hookCalls = 1 := by decide
theorem test_untrapped_write_draws_nothing : (memWrite (withCfg nops trapping) 0x0301#16 0x01#8).hookCalls = 0 := by decide
theorem test_core_reset : Sys2Proof.core.reset = State.reset := rfl

/-! ### Witnesses: the hypotheses of each statement can be met -/

/-- DEC $02FF,X at the first byte of a page: 8 cycles under AllIndexed, 7 under ReadsOnly. -/
def decCrossing : State := (start [0xDE, 0xFF, 0x02]).setX 0x01#8

/-- The reset state with an instruction pushed and trapped addresses away from the stack. -/
def jsrHere : State := withCfg (start [0x20, 0x10, 0x06]) trapping

theorem witness_DecodedBytesAreEncoded : decode [0xA9#8, 0x80#8, 0xEA#8] = .ok (.ldaImm 0x80#8) [0xEA#8] := by decide
theorem witness_OpcodeByteFixesLength :
    decode [0xA9#8, 0x80#8] = .ok (.ldaImm 0x80#8) [] ∧ decode [0xA9#8, 0x00#8, 0x01#8] = .ok (.ldaImm 0x00#8) [0x01#8] := by
  decide
theorem witness_IllegalByteFaults :
    illegal02.status = .running ∧ (memRead illegal02 illegal02.pc).value ∈ illegalBytes := by decide
theorem witness_IllegalByteFaults_last_byte :
    (start [0xFF]).status = .running ∧ (memRead (start [0xFF]) (start [0xFF]).pc).value ∈ illegalBytes := by decide
theorem witness_StepRunsDecodedInstruction :
    nops.status = .running ∧ decode (readBytes nops nops.pc (Instr.nop).length).1 = .ok .nop [] := by decide
theorem witness_StepRunsDecodedInstruction_at_top :
    (startAt 0xFFFE#16 [0x4C, 0x00, 0x06]).status = .running ∧
      decode (readBytes (startAt 0xFFFE#16 [0x4C, 0x00, 0x06]) 0xFFFE#16 (Instr.jmpAbs 0x0600#16).length).1 =
        .ok (.jmpAbs 0x0600#16) [] := by decide
theorem witness_PlacedWordRuns : decodeTableWord 16 0x80A9 = some (.ldaImm 0x80#8) := by decide
theorem witness_StepNeedsRunningStatus_unreset : (nops.setStatus .unreset).status = .unreset := by decide
theorem witness_StepNeedsRunningStatus_faulted : faulted.status = .faulted 0x0601#16 0x02#8 := by decide
theorem witness_RunningStepAnswersNext : State.reset.status = .running := by decide
theorem witness_StepKeepsInvariant :
    Invariant decCrossing ∧ step decCrossing = .next (after decCrossing) := by
  exact ⟨⟨by decide, by decide, by decide⟩, step_after (by decide)⟩
theorem witness_ResetMeetsInvariant : nops.mem.wf = true := by decide
theorem witness_StepCostBounds_eight :
    (withCfg decCrossing allIndexed).status = .running ∧
      step (withCfg decCrossing allIndexed) = .next (after (withCfg decCrossing allIndexed)) ∧
      (after (withCfg decCrossing allIndexed)).status = .running ∧
      (after (withCfg decCrossing allIndexed)).tickcount = 8 := ⟨by decide, step_after (by decide), by decide, by decide⟩
theorem witness_StepCostBounds_seven :
    decCrossing.status = .running ∧ step decCrossing = .next (after decCrossing) ∧ (after decCrossing).status = .running ∧
      decCrossing.cfg.penaltyScope = .readsOnly ∧ (after decCrossing).tickcount = 7 := ⟨by decide, step_after (by decide), by decide, by decide, by decide⟩
theorem witness_StepCostBounds_two :
    nops.status = .running ∧ step nops = .next (after nops) ∧ (after nops).status = .running ∧ (after nops).tickcount = 2 := ⟨by decide, step_after (by decide), by decide, by decide⟩
theorem witness_StepCostBounds_faulted :
    illegal02.status = .running ∧ step illegal02 = .next (after illegal02) ∧ (after illegal02).status ≠ .running := ⟨by decide, step_after (by decide), by decide⟩
theorem witness_WaitingBitsAreInert : step nops = .next (after nops) := step_after (by decide)
theorem witness_StepKeepsConfiguration : step jsrHere = .next (after jsrHere) := step_after (by decide)
theorem witness_DecimalFlagOnlyAffectsAddAndSubtract :
    ∀ op rest, encode (.cmpImm 0x42#8) = op :: rest → op ∉
      [0x61#8, 0x65#8, 0x69#8, 0x6D#8, 0x71#8, 0x75#8, 0x79#8, 0x7D#8, 0xE1#8, 0xE5#8, 0xE9#8, 0xED#8, 0xF1#8, 0xF5#8, 0xF9#8, 0xFD#8, 0x08#8, 0x00#8] := by
  intro op rest h
  injection h with h
  subst h
  decide
theorem witness_InterruptFlagIsInert : Instr.adcImm 0x01#8 ≠ .php ∧ Instr.adcImm 0x01#8 ≠ .brk := by decide
theorem witness_TrappedAccessesCallHooks :
    (0x0300#16 : Word) ∈ trapping.trapped ∧ trapping.hasReadHook = true ∧ trapping.hasWriteHook = true := by decide
theorem witness_TrappedAccessesCallHooks_untrapped : (0x0301#16 : Word) ∉ trapping.trapped := by decide
theorem witness_MemoryAccessWithoutTraps :
    State.reset.cfg.trapped = [] ∧ (0xFFFE#16 : Word) ≠ 0xFFFF#16 ∧ (0xFFFE#16 : Word) ≠ 0xFFFF#16 + 1#16 := by decide
theorem witness_WordsAreLittleEndianAndWrap :
    State.reset.cfg.trapped = [] ∧ (readWord (poke (poke State.reset 0xFFFF 0x34) 0x0000 0x12) 0xFFFF#16).value = 0x1234#16 ∧
      (readWordZP (poke (poke State.reset 0x00FF 0x34) 0x0000 0x12) 0xFF#8).value = 0x1234#16 := by decide
theorem witness_PushesStayInPageOne :
    (0x00FF#16 : Word).toNat < 0x100 ∧ 0x1FF < (0x0200#16 : Word).toNat ∧ (List.replicate 256 (0x00#8 : Byte)).length = 256 := by
  refine ⟨by decide, by decide, List.length_replicate⟩
theorem witness_ResetOperation : beforeReset.cfg.trapped = [] := by decide
theorem witness_ResumeRestartsFaultedCore :
    faulted.status = .faulted 0x0601#16 0x02#8 ∧ nops.status = .running ∧ (nops.setStatus .unreset).status = .unreset := by decide
theorem witness_FaultedRunReturnsError :
    faulted.status = .faulted 0x0601#16 0x02#8 ∧ runForTicks 0 3 faulted = .ok faulted ∧
      runForTicks 1 3 faulted = .err 0x0601#16 0x02#8 faulted := by decide
theorem witness_RunStopsAtBudget :
    (0 : Int) ≤ 1 ∧ runForTicks 1 3 (withCfg decCrossing allIndexed) = .ok (after (withCfg decCrossing allIndexed)) ∧
      ((after (withCfg decCrossing allIndexed)).tickcount : Int) - (withCfg decCrossing allIndexed).tickcount = 1 + 7 := by decide
theorem witness_RunStopsAtBudget_zero : (0 : Int) ≤ 0 ∧ runForTicks 0 3 nops = .ok nops := by decide
theorem witness_BudgetedRunEnds : nops.status ≠ .unreset ∧ 3 ≤ 3 := by decide
theorem witness_BudgetOfOneSingleSteps_ok :
    nops.status = .running ∧ step nops = .next (after nops) ∧ (after nops).status = .running := ⟨by decide, step_after (by decide), by decide⟩
theorem witness_BudgetOfOneSingleSteps_err :
    illegal02.status = .running ∧ step illegal02 = .next (after illegal02) ∧
      (after illegal02).status = .faulted 0x0600#16 0x02#8 := ⟨by decide, step_after (by decide), by decide⟩
theorem witness_BudgetOfOneSingleSteps_unreset : (nops.setStatus .unreset).status = .unreset := by decide
theorem witness_ZeroPageIndexedAddress :
    State.reset.cfg.zpIndexMode = .wrap8 ∧ (withCfg State.reset signed16).cfg.zpIndexMode = .signed16 := by decide
theorem witness_ADCAddsWithCarry : State.reset.flag .d = false ∧ (State.reset.setF 0x2C#8).flag .d = true := by decide
theorem witness_SBCSubtractsWithBorrow : State.reset.flag .d = false ∧ (State.reset.setF 0x2C#8).flag .d = true := by decide
theorem witness_FlagInstructionsAndNop : nops.status = .running ∧ (memRead nops nops.pc).value = 0xEA#8 := by decide
theorem witness_BranchesTestOneFlag : State.reset.flag .z = false ∧ State.reset.flag .z ≠ true := by decide
theorem witness_CallThenReturn :
    (∀ a : Word, a ∈ jsrHere.cfg.trapped → a ≠ stackAddr jsrHere.sp ∧ a ≠ stackAddr (jsrHere.sp - 1#8)) ∧
      ∃ t, exec (.jsr 0x0610#16) jsrHere = .next t := by
  refine ⟨?_, _, rfl⟩
  intro a ha
  have : a = 0x0300#16 := by simpa [jsrHere, withCfg, trapping] using ha
  subst this
  decide
theorem witness_TrapThenReturn :
    (∀ a : Word, a ∈ jsrHere.cfg.trapped →
        a ≠ stackAddr jsrHere.sp ∧ a ≠ stackAddr (jsrHere.sp - 1#8) ∧ a ≠ stackAddr (jsrHere.sp - 2#8)) ∧
      jsrHere.f.getLsbD 5 = true ∧ jsrHere.flag .b = false ∧ ∃ t, exec .brk jsrHere = .next t := by
  refine ⟨?_, by decide, by decide, _, rfl⟩
  intro a ha
  have : a = 0x0300#16 := by simpa [jsrHere, withCfg, trapping] using ha
  subst this
  decide

end Sys2Proof.Tests
end

section
/-!
PROOFS. The plain memory accesses and the stack primitives (20_memory.md): what an access does when no address is trapped, and
each stack operation as the byte accesses it makes.
-/
namespace Sys2Proof.Machine

variable (s : State)

/-! ### Reading a byte after a byte is written (R44) -/

@[simp] theorem State.setByte_byteAt_self (a : Word) (v : Byte) : (s.setByte a v).byteAt a = v := by
  rw [State.setByte_byteAt, if_pos rfl]

theorem State.setByte_byteAt_ne {a b : Word} (v : Byte) (h : b ≠ a) : (s.setByte a v).byteAt b = s.byteAt b := by
  rw [State.setByte_byteAt, if_neg h]

/-! ### Accesses with no trapped address (R44) -/

theorem trapsRead_of_trapped_nil {c : Config} (h : c.trapped = []) (a : Word) : trapsRead c a = false := by
  simp [trapsRead, h]

theorem trapsWrite_of_trapped_nil {c : Config} (h : c.trapped = []) (a : Word) : trapsWrite c a = false := by
  simp [trapsWrite, h]

section
variable {s} (h : s.cfg.trapped = [])
include h

theorem memRead_of_trapped_nil (a : Word) : memRead s a = { value := s.byteAt a, state := s } :=
  memRead_untrapped s (trapsRead_of_trapped_nil h a)

theorem memWrite_of_trapped_nil (a : Word) (v : Byte) : memWrite s a v = s.setByte a v :=
  memWrite_untrapped s (trapsWrite_of_trapped_nil h a)

theorem readWord_of_trapped_nil (a : Word) :
    readWord s a = { value := mkWord (s.byteAt (a + 1#16)) (s.byteAt a), state := s } :=
  readPair_untrapped s (trapsRead_of_trapped_nil h a) (trapsRead_of_trapped_nil h (a + 1#16))

/-- A word is written as two bytes, the low one first (R50). -/
theorem writeWord_of_trapped_nil (a w : Word) :
    writeWord s a w = (s.setByte a (lo8 w)).setByte (a + 1#16) (hi8 w) := by
  have hlow : memWrite s a (lo8 w) = s.setByte a (lo8 w) := memWrite_of_trapped_nil h a _
  have hhigh := memWrite_of_trapped_nil (s := s.setByte a (lo8 w)) h (a + 1#16) (hi8 w)
  rw [writeWord, hlow, hhigh]

end

/-- The two bytes of a word have different addresses, also where `a + 1` wraps (R50). -/
theorem self_ne_add_one (a : Word) : a ≠ a + 1#16 := by bv_omega

/-! ### The stack primitives as byte accesses (R57 to R60) -/

theorem push8_eq_memWrite (v : Byte) : push8 s v = { memWrite s (stackAddr s.sp) v with sp := s.sp - 1#8 } := by
  have hsp : (memWrite s (stackAddr s.sp) v).sp = s.sp := by
    obtain ⟨_, _, heq, -, -⟩ := memWrite_eq s (stackAddr s.sp) v
    rw [heq]; rfl
  rw [push8, hsp]; rfl

theorem pop8_eq_memRead : pop8 s = memRead { s with sp := s.sp + 1#8 } (stackAddr (s.sp + 1#8)) := rfl

/-- SP is an offset in page 1: moving it up wraps from 0x01FF to 0x0100. -/
theorem stackAddr_add_one_toNat (sp : Byte) : (stackAddr (sp + 1#8)).toNat = 256 + (sp.toNat + 1) % 256 := by
  rw [stackAddr_toNat, BitVec.toNat_add]; rfl

theorem push16_eq_push8_push8 (w : Word) :
    push16 s w = push8 (push8 s (w.extractLsb' 8 8)) (w.extractLsb' 0 8) := by
  rw [push16, hi8_eq_extract, lo8_eq_extract]

theorem pop16_state_eq : (pop16 s).state = (pop8 (pop8 s).state).state := rfl

/-- The first byte popped is the low byte of the word (R60). -/
theorem pop16_value : (pop16 s).value = mkWord (pop8 (pop8 s).state).value (pop8 s).value := rfl

theorem pop16_value_toNat :
    (pop16 s).value.toNat = (pop8 s).value.toNat + 256 * (pop8 (pop8 s).state).value.toNat := by
  rw [pop16_value, mkWord_toNat]; omega

end Sys2Proof.Machine

namespace Sys2Proof.Proofs
open Sys2Proof Sys2Proof.Machine

/-- Settles O20: each primitive is the byte accesses R57 to R60 give, at the stack address of SP. -/
theorem stackPushAndPop : Obligations.StackPushAndPop := by
  intro s v w
  refine ⟨⟨stackAddr s.sp, ?_, ?_⟩, ⟨stackAddr (s.sp + 1#8), ?_, ?_⟩, ?_, ?_, ?_⟩
  · exact stackAddr_toNat s.sp
  · exact push8_eq_memWrite s v
  · exact stackAddr_add_one_toNat s.sp
  · exact pop8_eq_memRead s
  · exact push16_eq_push8_push8 s w
  · exact pop16_value_toNat s
  · exact pop16_state_eq s

/-- Settles O17: with nothing trapped an access is the access to the memory list, and a read after a write decides each clause. -/
theorem memoryAccessWithoutTraps : Obligations.MemoryAccessWithoutTraps := by
  intro s a w v h
  rw [memWrite_of_trapped_nil h, writeWord_of_trapped_nil h, ← lo8_eq_extract, ← hi8_eq_extract]
  refine ⟨memRead_of_trapped_nil h a, s.setByte_byteAt_self a v, fun b hb => s.setByte_byteAt_ne v hb,
    readWord_of_trapped_nil h a, ?_, State.setByte_byteAt_self _ (a + 1#16) (hi8 w), ?_⟩
  · rw [State.setByte_byteAt_ne _ _ (self_ne_add_one a), State.setByte_byteAt_self]
  · intro b hlow hhigh
    rw [State.setByte_byteAt_ne _ _ hhigh, State.setByte_byteAt_ne _ _ hlow]

end Sys2Proof.Proofs
end

section
/-!
PROOFS. The ALU helpers (41_alu.md): the binary add and subtract through their sign bits, and the decimal add and subtract digit
by digit.
-/
namespace Sys2Proof.Machine

/-! ### The sign bit of a byte -/

/-- The mask of the overflow formulas of R110 and R111 keeps the sign bit alone. -/
theorem and_signMask_ne_zero (v : Byte) : ((v &&& 0x80#8) != 0#8) = v.msb := by
  have hmask : (0x80#8 : Byte) = BitVec.twoPow 8 7 := by decide
  rw [hmask, BitVec.and_twoPow, BitVec.msb_eq_getLsbD_last]
  cases v.getLsbD 7 <;> decide

/-! ### Binary add (R110) -/

section
variable (a b : Byte) (c : Bool)

theorem addHex_value_toNat : (addHex a b c).value.toNat = (a.toNat + b.toNat + c.toNat) % 256 :=
  BitVec.toNat_ofNat _ _

theorem addHex_carry : (addHex a b c).carry = decide (255 < a.toNat + b.toNat + c.toNat) := rfl

theorem addHex_overflow :
    (addHex a b c).overflow = decide (a.msb = b.msb ∧ (addHex a b c).value.msb ≠ a.msb) := by
  have hmask : (addHex a b c).overflow = (~~~(a ^^^ b) &&& (a ^^^ (addHex a b c).value)).msb :=
    and_signMask_ne_zero _
  rw [hmask, BitVec.msb_and, BitVec.msb_not, BitVec.msb_xor, BitVec.msb_xor]
  generalize a.msb = signA, b.msb = signB, (addHex a b c).value.msb = signR
  revert signA signB signR
  decide

/-- Same-sign operands give a result of the other sign exactly when the signed sum does not fit in a byte. -/
theorem addHex_overflow_iff_signed :
    (addHex a b c).overflow = true ↔
      a.toInt + b.toInt + c.toNat < -128 ∨ 127 < a.toInt + b.toInt + c.toNat := by
  have hvalue := addHex_value_toNat a b c
  have hc : c.toNat ≤ 1 := c.toNat_le
  rw [addHex_overflow, decide_eq_true_iff]
  simp only [BitVec.toInt_eq_msb_cond, BitVec.msb_eq_decide, decide_eq_true_eq, decide_eq_decide, ne_eq]
  omega

/-! ### Binary subtract (R111) -/

theorem BinaryResult.eq_of_fields_eq {r t : BinaryResult} (hvalue : r.value = t.value) (hcarry : r.carry = t.carry)
    (hoverflow : r.overflow = t.overflow) : r = t := by
  cases r
  cases t
  rw [BinaryResult.mk.injEq]
  exact ⟨hvalue, hcarry, hoverflow⟩

theorem subtractHex_value_toNat :
    ((subtractHex a b c).value.toNat : Int) = ((a.toNat : Int) - b.toNat - (1 - c.toNat)) % 256 := by
  have hofInt : (subtractHex a b c).value.toNat = (((a.toNat : Int) - b.toNat - (1 - c.toNat)) % 256).toNat :=
    BitVec.toNat_ofInt _
  omega

theorem subtractHex_carry :
    (subtractHex a b c).carry = decide (0 ≤ (a.toNat : Int) - b.toNat - (1 - c.toNat)) := rfl

theorem subtractHex_overflow :
    (subtractHex a b c).overflow = decide (a.msb ≠ b.msb ∧ (subtractHex a b c).value.msb ≠ a.msb) := by
  have hmask : (subtractHex a b c).overflow = ((a ^^^ b) &&& (a ^^^ (subtractHex a b c).value)).msb :=
    and_signMask_ne_zero _
  rw [hmask, BitVec.msb_and, BitVec.msb_xor, BitVec.msb_xor]
  generalize a.msb = signA, b.msb = signB, (subtractHex a b c).value.msb = signR
  revert signA signB signR
  decide

/-- The complement is `255 - b`, so the two exact sums differ by 256. -/
theorem subtractHex_value_eq_addHex_not : (subtractHex a b c).value = (addHex a (~~~b) c).value := by
  have hsub := subtractHex_value_toNat a b c
  have hadd := addHex_value_toNat a (~~~b) c
  rw [BitVec.toNat_not] at hadd
  apply BitVec.eq_of_toNat_eq
  omega

theorem subtractHex_carry_eq_addHex_not : (subtractHex a b c).carry = (addHex a (~~~b) c).carry := by
  rw [subtractHex_carry, addHex_carry, decide_eq_decide, BitVec.toNat_not]
  omega

/-- The complement has the other sign, so "same sign" and "different sign" change places. -/
theorem subtractHex_overflow_eq_addHex_not : (subtractHex a b c).overflow = (addHex a (~~~b) c).overflow := by
  rw [subtractHex_overflow, addHex_overflow, subtractHex_value_eq_addHex_not, decide_eq_decide, BitVec.msb_not,
    ← Bool.eq_not]
  rfl

/-- The last sentence of R111. -/
theorem subtractHex_eq_addHex_not : subtractHex a b c = addHex a (~~~b) c :=
  BinaryResult.eq_of_fields_eq (subtractHex_value_eq_addHex_not a b c)
    (subtractHex_carry_eq_addHex_not a b c) (subtractHex_overflow_eq_addHex_not a b c)

end

/-! ### Decimal digits (R112) -/

theorem lowDigit_le (v : Byte) : lowDigit v ≤ 9 := Nat.min_le_right _ _

theorem highDigit_le (v : Byte) : highDigit v ≤ 9 := Nat.min_le_right _ _

/-- The two-digit number an operand stands for once its nibbles are clamped (R112). -/
def decimalValue (v : Byte) : Nat := 10 * highDigit v + lowDigit v

/-- Two digits packed in a byte are its nibbles. -/
theorem ofNat_digits_nibbles {hi lo : Nat} (hhi : hi ≤ 9) (hlo : lo ≤ 9) :
    (BitVec.ofNat 8 (hi * 16 + lo)).toNat / 16 = hi ∧ (BitVec.ofNat 8 (hi * 16 + lo)).toNat % 16 = lo := by
  rw [BitVec.toNat_ofNat]
  omega

/-- A sum of two digits and a carry, brought back to a digit: what is taken off is 10 times the carry out. -/
theorem digit_sum_carry {sum : Nat} (h : sum ≤ 19) :
    ∃ digit carry : Nat, digit ≤ 9 ∧ (if 9 < sum then sum - 10 else sum) = digit ∧
      (if 9 < sum then 1 else 0) = carry ∧ (decide (9 < sum)).toNat = carry ∧ digit + 10 * carry = sum := by
  by_cases hcarry : 9 < sum
  · exact ⟨sum - 10, 1, by omega, if_pos hcarry, if_pos hcarry, by rw [decide_eq_true hcarry]; rfl, by omega⟩
  · exact ⟨sum, 0, by omega, if_neg hcarry, if_neg hcarry, by rw [decide_eq_false hcarry]; rfl, by omega⟩

/-- A difference of two digits and a borrow, brought back to a digit: what is put on is 10 times the borrow out. -/
theorem digit_difference_borrow {d : Int} (hlow : -10 ≤ d) (hhigh : d ≤ 9) :
    ∃ (digit : Nat) (borrow : Int), digit ≤ 9 ∧ (if d < 0 then d + 10 else d) = digit ∧
      (if d < 0 then 1 else 0) = borrow ∧ (decide (0 ≤ d)).toNat = 1 - borrow ∧ digit = d + 10 * borrow := by
  by_cases hborrow : d < 0
  · exact ⟨(d + 10).toNat, 1, by omega, by rw [if_pos hborrow]; omega, if_pos hborrow,
      by rw [decide_eq_false (by omega)]; rfl, by omega⟩
  · exact ⟨d.toNat, 0, by omega, by rw [if_neg hborrow]; omega, if_neg hborrow,
      by rw [decide_eq_true (by omega)]; rfl, by omega⟩

/-! ### Decimal add and subtract (R112, R113) -/

section
variable (a b : Byte) (c : Bool)

/-- The low digits give a digit and a carry, the high digits and that carry give the other digit and the carry out. -/
theorem addDecimal_digits :
    ∃ hi lo, hi ≤ 9 ∧ lo ≤ 9 ∧ (addDecimal a b c).value = BitVec.ofNat 8 (hi * 16 + lo) ∧
      10 * hi + lo + 100 * (addDecimal a b c).carry.toNat = decimalValue a + decimalValue b + c.toNat := by
  have hc : c.toNat ≤ 1 := c.toNat_le
  have := lowDigit_le a; have := lowDigit_le b; have := highDigit_le a; have := highDigit_le b
  obtain ⟨lo, k, hlo, hloDigit, hk, -, hloSum⟩ := digit_sum_carry
    (sum := lowDigit a + lowDigit b + c.toNat) (by omega)
  obtain ⟨hi, co, hhi, hhiDigit, -, hco, hhiSum⟩ := digit_sum_carry
    (sum := highDigit a + highDigit b + k) (by omega)
  refine ⟨hi, lo, hhi, hlo, ?_, ?_⟩
  · simp only [addDecimal, hloDigit, hk, hhiDigit]
  · simp only [addDecimal, hk, hco, decimalValue]
    omega

/-- The low digits give a digit and a borrow, the high digits and that borrow give the other digit and the borrow out. -/
theorem subtractDecimal_digits :
    ∃ hi lo, hi ≤ 9 ∧ lo ≤ 9 ∧ (subtractDecimal a b c).value = BitVec.ofNat 8 (hi * 16 + lo) ∧
      10 * hi + lo + decimalValue b + 1 + 100 * (subtractDecimal a b c).carry.toNat =
        decimalValue a + c.toNat + 100 := by
  have hc : c.toNat ≤ 1 := c.toNat_le
  have := lowDigit_le a; have := lowDigit_le b; have := highDigit_le a; have := highDigit_le b
  obtain ⟨lo, k, hlo, hloDigit, hk, -, hloDiff⟩ := digit_difference_borrow
    (d := (lowDigit a : Int) - lowDigit b - (1 - (c.toNat : Int))) (by omega) (by omega)
  obtain ⟨hi, borrow, hhi, hhiDigit, -, hco, hhiDiff⟩ := digit_difference_borrow
    (d := (highDigit a : Int) - highDigit b - k) (by omega) (by omega)
  refine ⟨hi, lo, hhi, hlo, ?_, ?_⟩
  · simp only [subtractDecimal, hloDigit, hk, hhiDigit]
    exact_mod_cast BitVec.ofInt_natCast 8 (hi * 16 + lo)
  · simp only [subtractDecimal, hk, decimalValue]
    omega

end

end Sys2Proof.Machine

namespace Sys2Proof.Proofs
open Sys2Proof Sys2Proof.Machine

/-- Settles O29: value and carry are those of the exact sum, and the sign bits decide the overflow. -/
theorem binaryAdd : Obligations.BinaryAdd := by
  intro a b c
  exact ⟨addHex_value_toNat a b c, addHex_carry a b c, addHex_overflow a b c, addHex_overflow_iff_signed a b c⟩

/-- Settles O30: value, carry and overflow of the difference, each the one of the sum with the complement. -/
theorem binarySubtract : Obligations.BinarySubtract := by
  intro a b c
  exact ⟨subtractHex_value_toNat a b c, subtractHex_carry a b c, subtractHex_overflow a b c,
    subtractHex_eq_addHex_not a b c⟩

/-- Settles O31: the result's nibbles are the two digits of the sum. -/
theorem decimalAdd : Obligations.DecimalAdd := by
  intro a b c
  obtain ⟨hi, lo, hhi, hlo, hvalue, hsum⟩ := addDecimal_digits a b c
  obtain ⟨hdiv, hmod⟩ := ofNat_digits_nibbles hhi hlo
  rw [hvalue, hdiv, hmod]
  exact ⟨hhi, hlo, hsum⟩

/-- Settles O32: the result's nibbles are the two digits of the difference. -/
theorem decimalSubtract : Obligations.DecimalSubtract := by
  intro a b c
  obtain ⟨hi, lo, hhi, hlo, hvalue, hdiff⟩ := subtractDecimal_digits a b c
  obtain ⟨hdiv, hmod⟩ := ofNat_digits_nibbles hhi hlo
  rw [hvalue, hdiv, hmod]
  exact ⟨hhi, hlo, hdiff⟩

end Sys2Proof.Proofs
end

section
/-!
PROOFS. Loads, stores and register transfers (42_load_store_transfer.md): the bytes of a row of the opcode table decode to its
instruction, and what the shared operation of the row writes, leaves as it was and costs.
-/
namespace Sys2Proof.Machine

/-! ### A row's bytes decode to its instruction (30_encoding.md R67 to R70) -/

section
variable {op : Byte}

theorem decode_of_one {i : Instr} (h : decodeByte op = .one i) : decode [op] = .ok i [] := by
  simp only [decode, h]

theorem decode_of_two {mk : Byte → Instr} {v : Byte} (h : decodeByte op = .two mk) :
    decode [op, v] = .ok (mk v) [] := by
  simp only [decode, h]

/-- The operand is stored low byte first (R70), and its two bytes are the word again. -/
theorem decode_of_three {mk : Word → Instr} {w : Word} (h : decodeByte op = .three mk) :
    decode (bytes3 op w) = .ok (mk w) [] := by
  simp only [decode, bytes3, h, ← lo8_eq_extract, ← hi8_eq_extract, mkWord_hi8_lo8]

end

/-! ### Costs (40_execution.md R99, R101) -/

theorem add_pagePenalty_reads (c : Config) (base : Nat) (crossed : Bool) :
    base + pagePenalty c .reads crossed = readCost base crossed := by
  cases crossed <;> simp [readCost]

theorem add_pagePenalty_stores (c : Config) (base : Nat) (crossed : Bool) :
    base + pagePenalty c .stores crossed = storeCost c base crossed := by
  cases crossed with
  | false => simp [storeCost]
  | true => cases h : c.penaltyScope <;> simp [storeCost, pagePenalty, h]

/-! ### Frames -/

section
variable {s t : State}

theorem reportsNZ_of_f_eq_setNZ {f v : Byte} (h : t.f = setNZ f v) : ReportsNZ v t := by
  simp only [ReportsNZ, State.flag, flagTest, h, getLsbD_setNZ]
  exact ⟨rfl, rfl⟩

theorem flagsKept_of_f_eq_setNZ {v : Byte} (h : t.f = setNZ s.f v) : FlagsKept [.n, .z] s t := by
  intro i hi
  have hn : i ≠ 7 := hi .n (by simp)
  have hz : i ≠ 1 := hi .z (by simp)
  rw [h, getLsbD_setNZ, if_neg hz, if_neg hn]

theorem flagsKept_of_f_eq {fs : List Flag} (h : t.f = s.f) : FlagsKept fs s t := fun i _ => by rw [h]

theorem memoryKept_of_mem_eq (h : t.mem = s.mem) : MemoryKept s t := fun a => by
  rw [State.byteAt, State.byteAt, h]

end

variable (s : State)

theorem regsKept_setReg (r : Reg) (v : Byte) : RegsKept [r] s (s.setReg r v) := fun r' hr' => by
  rw [State.reg_setReg, if_neg (by simpa using hr')]

/-! ### Writing a register and reporting it (41_alu.md R109) -/

/-- Write `v` to a register and report it in N and Z, after reads that brought the count of hook calls to `n`; `ticks` cycles. -/
def writeReported (s : State) (n : Nat) (r : Reg) (v : Byte) (ticks : Nat) : State :=
  (((s.setHookCalls n).setReg r v).setF (setNZ s.f v)).addTicks ticks

theorem loadReg_eq_writeReported (r : Reg) (src : Source) (base : Nat) :
    ∃ n, loadReg r src base s =
      writeReported s n r (loadSource s src).value (readCost base (loadSource s src).crossed) := by
  obtain ⟨n, hn⟩ := loadReg_eq s r src base
  exact ⟨n, by rw [hn, add_pagePenalty_reads]; rfl⟩

theorem transfer_eq_writeReported (src dst : Reg) (base : Nat) :
    transfer src dst base s = writeReported s s.hookCalls dst (s.reg src) base := by
  simp [transfer, writeReported]

/-- All that a reported register write does, and all that it leaves. -/
theorem writeReported_spec {t : State} {n : Nat} {r : Reg} {v : Byte} {ticks : Nat} (ht : t = writeReported s n r v ticks) :
    t.reg r = v ∧ ReportsNZ v t ∧ Frame [r] [.n, .z] s t ∧ MemoryKept s t ∧ t.pc = s.pc ∧
      t.tickcount = s.tickcount + ticks := by
  have hreg (r' : Reg) : t.reg r' = (s.setReg r v).reg r' := by simp [ht, writeReported, State.reg_setReg]
  have hf : t.f = setNZ s.f v := by rw [ht]; rfl
  have hmem : t.mem = s.mem := by simp [ht, writeReported]
  have hhost : HostStateKept s t := by simp [HostStateKept, ht, writeReported]
  refine ⟨?value, reportsNZ_of_f_eq_setNZ hf, ⟨fun r' hr' => ?regs, flagsKept_of_f_eq_setNZ hf, hhost⟩,
    memoryKept_of_mem_eq hmem, ?pc, ?ticks⟩
  case value => rw [hreg, State.reg_setReg_self]
  case regs => rw [hreg, regsKept_setReg s r v r' hr']
  case pc => simp [ht, writeReported]
  case ticks => simp [ht, writeReported]

/-! ### Storing a register (20_memory.md R44, R45) -/

/-- `memWrite_eq` with the byte named: it is the one `storedByte` speaks of. -/
theorem memWrite_eq_setByte_storedByte (a : Word) (v : Byte) :
    ∃ n, memWrite s a v = (s.setByte a (storedByte s a v)).setHookCalls n := by
  unfold memWrite storedByte
  split
  · exact ⟨_, rfl⟩
  · exact ⟨s.hookCalls, rfl⟩

theorem storeReg_eq_setByte_storedByte (r : Reg) (m : EaMode) (base : Nat) :
    ∃ n, storeReg r m base s =
      ((s.setByte (resolveEa s m).ea (storedByte (resolveEa s m).state (resolveEa s m).ea (s.reg r))).setHookCalls n).addTicks
        (storeCost s.cfg base (resolveEa s m).crossed) := by
  obtain ⟨k, hk, -⟩ := resolveEa_state s m
  obtain ⟨n, hn⟩ := memWrite_eq_setByte_storedByte (resolveEa s m).state (resolveEa s m).ea (s.reg r)
  refine ⟨n, ?_⟩
  rw [storeReg, hn, add_pagePenalty_stores]
  generalize storedByte (resolveEa s m).state (resolveEa s m).ea (s.reg r) = v
  rw [hk]; rfl

/-! ### The rows of section 42, each from its table entry and its shared operation -/

section
variable {r : Reg} {bytes : List Byte} {i : Instr} {base : Nat}

theorem loadForm_of_exec_eq {src : Source} (hdecode : decode bytes = .ok i [])
    (hexec : ∀ s, exec i s = .next (loadReg r src base s)) : LoadForm r bytes i src base := by
  refine ⟨hdecode, fun s => ⟨_, hexec s, ?_⟩⟩
  obtain ⟨n, hload⟩ := loadReg_eq_writeReported s r src base
  exact writeReported_spec s hload

theorem registerForm_of_exec_eq_transfer {op : Byte} {src : Reg} (hdecode : decode [op] = .ok i [])
    (hexec : ∀ s, exec i s = .next (transfer src r 2 s)) : RegisterForm r op i (·.reg src) := by
  refine ⟨hdecode, fun s => ⟨_, hexec s, ?_⟩⟩
  exact writeReported_spec s (transfer_eq_writeReported s src r 2)

theorem storeForm_of_exec_eq {m : EaMode} (hdecode : decode bytes = .ok i [])
    (hexec : ∀ s, exec i s = .next (storeReg r m base s)) : StoreForm r bytes i m base := by
  refine ⟨hdecode, fun s => ⟨_, hexec s, ?_⟩⟩
  obtain ⟨n, hstore⟩ := storeReg_eq_setByte_storedByte s r m base
  rw [hstore]
  generalize storedByte (resolveEa s m).state (resolveEa s m).ea (s.reg r) = v
  refine ⟨?stored, fun a ha => ?others, ⟨fun r' _ => ?regs, flagsKept_of_f_eq rfl, rfl, rfl, rfl, rfl⟩, rfl, rfl⟩
  case stored => exact State.setByte_byteAt_self s _ v
  case others => exact State.setByte_byteAt_ne s v (by simpa using ha)
  case regs => cases r' <;> rfl

end

end Sys2Proof.Machine

namespace Sys2Proof.Proofs
open Sys2Proof Sys2Proof.Machine

/-- Settles O37: every row of LDA is a `loadReg` of A. -/
theorem ldaLoadsAccumulator : Obligations.LDALoadsAccumulator := by
  intro v z w
  exact ⟨loadForm_of_exec_eq (decode_of_two rfl) fun _ => rfl,
    loadForm_of_exec_eq (decode_of_two rfl) fun _ => rfl,
    loadForm_of_exec_eq (decode_of_two rfl) fun _ => rfl,
    loadForm_of_exec_eq (decode_of_three rfl) fun _ => rfl,
    loadForm_of_exec_eq (decode_of_two rfl) fun _ => rfl,
    loadForm_of_exec_eq (decode_of_two rfl) fun _ => rfl,
    loadForm_of_exec_eq (decode_of_three rfl) fun _ => rfl,
    loadForm_of_exec_eq (decode_of_three rfl) fun _ => rfl⟩

/-- Settles O38: every row of LDX is a `loadReg` of X, every row of LDY one of Y. -/
theorem ldxAndLDYLoadIndex : Obligations.LDXAndLDYLoadIndex := by
  intro v z w
  exact ⟨loadForm_of_exec_eq (decode_of_two rfl) fun _ => rfl,
    loadForm_of_exec_eq (decode_of_two rfl) fun _ => rfl,
    loadForm_of_exec_eq (decode_of_three rfl) fun _ => rfl,
    loadForm_of_exec_eq (decode_of_two rfl) fun _ => rfl,
    loadForm_of_exec_eq (decode_of_three rfl) fun _ => rfl,
    loadForm_of_exec_eq (decode_of_two rfl) fun _ => rfl,
    loadForm_of_exec_eq (decode_of_two rfl) fun _ => rfl,
    loadForm_of_exec_eq (decode_of_three rfl) fun _ => rfl,
    loadForm_of_exec_eq (decode_of_two rfl) fun _ => rfl,
    loadForm_of_exec_eq (decode_of_three rfl) fun _ => rfl⟩

/-- Settles O39: every row is a `storeReg` of its register. -/
theorem storesWriteOneByte : Obligations.StoresWriteOneByte := by
  intro z w
  exact ⟨storeForm_of_exec_eq (decode_of_two rfl) fun _ => rfl,
    storeForm_of_exec_eq (decode_of_two rfl) fun _ => rfl,
    storeForm_of_exec_eq (decode_of_three rfl) fun _ => rfl,
    storeForm_of_exec_eq (decode_of_two rfl) fun _ => rfl,
    storeForm_of_exec_eq (decode_of_two rfl) fun _ => rfl,
    storeForm_of_exec_eq (decode_of_three rfl) fun _ => rfl,
    storeForm_of_exec_eq (decode_of_three rfl) fun _ => rfl,
    storeForm_of_exec_eq (decode_of_two rfl) fun _ => rfl,
    storeForm_of_exec_eq (decode_of_three rfl) fun _ => rfl,
    storeForm_of_exec_eq (decode_of_two rfl) fun _ => rfl,
    storeForm_of_exec_eq (decode_of_two rfl) fun _ => rfl,
    storeForm_of_exec_eq (decode_of_three rfl) fun _ => rfl,
    storeForm_of_exec_eq (decode_of_two rfl) fun _ => rfl⟩

/-- Settles O40: the first five rows are a `transfer`; TXS (R132) writes SP alone and leaves F. -/
theorem transfersCopyRegister : Obligations.TransfersCopyRegister := by
  refine ⟨registerForm_of_exec_eq_transfer (src := .a) (decode_of_one rfl) fun _ => rfl,
    registerForm_of_exec_eq_transfer (src := .a) (decode_of_one rfl) fun _ => rfl,
    registerForm_of_exec_eq_transfer (src := .x) (decode_of_one rfl) fun _ => rfl,
    registerForm_of_exec_eq_transfer (src := .y) (decode_of_one rfl) fun _ => rfl,
    registerForm_of_exec_eq_transfer (src := .sp) (decode_of_one rfl) fun _ => rfl,
    decode_of_one rfl, fun s => ⟨_, rfl, rfl, ?frame, memoryKept_of_mem_eq rfl, rfl, rfl⟩⟩
  case frame => exact ⟨regsKept_setReg s .sp s.x, flagsKept_of_f_eq rfl, rfl, rfl, rfl, rfl⟩

end Sys2Proof.Proofs
end

section
/-!
PROOFS. Arithmetic, compare, increment and decrement (43_arithmetic_compare.md): what a write of F alone, of a register and F, and
of a byte and F does and leaves, and each row of the section from its table entry and its shared operation.
-/
namespace Sys2Proof.Machine

/-! ### What each flag computation leaves of F (10_state.md R24) -/

section
variable {s t : State}

theorem flagsKept_of_f_eq_compareFlags {reg v : Byte} (h : t.f = compareFlags s.f reg v) : FlagsKept [.n, .z, .c] s t := by
  intro i hi
  have hn : i ≠ 7 := hi .n (by simp)
  have hz : i ≠ 1 := hi .z (by simp)
  have hc : i ≠ 0 := hi .c (by simp)
  rw [h, getLsbD_compareFlags, if_neg hz, if_neg hn, if_neg hc]

/-- C compares the bytes as unsigned numbers, Z is their equality, N the sign of the difference modulo 256 (R135). -/
theorem flag_of_f_eq_compareFlags {f reg v : Byte} (h : t.f = compareFlags f reg v) :
    t.flag .c = decide (v.toNat ≤ reg.toNat) ∧ t.flag .z = decide (reg = v) ∧ t.flag .n = (reg - v).getLsbD 7 := by
  have hbit (fl : Flag) : t.flag fl = (compareFlags f reg v).getLsbD fl.bit := by rw [State.flag, flagTest, h]
  refine ⟨?carry, ?zero, ?negative⟩
  case carry => rw [hbit, getLsbD_compareFlags]; rfl
  case zero =>
    have hdiff : reg - v = 0#8 ↔ reg = v := sub_eq_zero
    rw [hbit, getLsbD_compareFlags, ← decide_eq_decide.mpr hdiff]; rfl
  case negative => rw [hbit, getLsbD_compareFlags]; rfl

/-- The F that ADC and SBC leave: C and V as given, N and Z from the sum, every other bit as it was (R133, R134). -/
theorem flags_of_f_eq_sum {v c : Bool} {r : Byte} (h : t.f = setNZ (flagPut (flagPut s.f .v v) .c c) r) :
    t.flag .c = c ∧ t.flag .v = v ∧ ReportsNZ r t ∧ FlagsKept [.n, .v, .z, .c] s t := by
  have hbit (i : Nat) : t.f.getLsbD i = if i = 1 then r == 0#8 else if i = 7 then r.getLsbD 7
      else if i = 0 then c else if i = 6 then v else s.f.getLsbD i := by
    rw [h, getLsbD_setNZ, getLsbD_flagPut, getLsbD_flagPut]; rfl
  refine ⟨hbit 0, hbit 6, reportsNZ_of_f_eq_setNZ h, fun i hi => ?others⟩
  case others =>
    have hn : i ≠ 7 := hi .n (by simp)
    have hv : i ≠ 6 := hi .v (by simp)
    have hz : i ≠ 1 := hi .z (by simp)
    have hc : i ≠ 0 := hi .c (by simp)
    rw [hbit, if_neg hz, if_neg hn, if_neg hc, if_neg hv]

end

/-! ### Writing F, with a register or with a byte -/

section
variable (s : State) {t : State} {n ticks : Nat} {f v : Byte}

/-- An operation that writes F alone, after reads that brought the count of hook calls to `n`. -/
theorem setF_spec {fs : List Flag} (ht : t = ((s.setHookCalls n).setF f).addTicks ticks) (hf : FlagsKept fs s t) :
    Frame [] fs s t ∧ MemoryKept s t ∧ t.pc = s.pc ∧ t.tickcount = s.tickcount + ticks := by
  subst ht
  exact ⟨⟨fun r _ => by simp, hf, rfl, rfl, rfl, rfl⟩, memoryKept_of_mem_eq rfl, rfl, rfl⟩

@[simp] theorem State.setByte_reg (a : Word) (v : Byte) (r : Reg) : (s.setByte a v).reg r = s.reg r := State.setMem_reg s _ r

/-- An operation that writes one byte of memory and F. -/
theorem setByte_setF_spec {a : Word} {fs : List Flag}
    (ht : t = (((s.setByte a v).setHookCalls n).setF f).addTicks ticks) (hf : FlagsKept fs s t) :
    t.byteAt a = v ∧ MemoryKeptExcept [a] s t ∧ Frame [] fs s t ∧ t.pc = s.pc ∧ t.tickcount = s.tickcount + ticks := by
  have hhost : HostStateKept s t := by simp [HostStateKept, ht]
  refine ⟨?stored, fun b hb => ?others, ⟨fun r _ => ?regs, hf, hhost⟩, ?pc, ?ticks⟩
  case stored => simp [ht]
  case others => simpa [ht] using State.setByte_byteAt_ne s v (by simpa using hb)
  case regs => simp [ht]
  case pc => simp [ht]
  case ticks => simp [ht]

/-- The common end of ADC and SBC, after the operand is loaded. -/
theorem putSum_spec {r : CarryResult} {overflow : Bool}
    (ht : t = (putSum (s.setHookCalls n) r overflow).addTicks ticks) :
    t.a = r.value ∧ t.flag .c = r.carry ∧ t.flag .v = overflow ∧ ReportsNZ t.a t ∧
      Frame [.a] [.n, .v, .z, .c] s t ∧ MemoryKept s t ∧ t.pc = s.pc ∧ t.tickcount = s.tickcount + ticks := by
  subst ht
  obtain ⟨hcarry, hoverflow, hNZ, hflags⟩ := flags_of_f_eq_sum (s := s)
    (t := (putSum (s.setHookCalls n) r overflow).addTicks ticks) rfl
  refine ⟨rfl, hcarry, hoverflow, hNZ, ⟨fun r' hr' => ?regs, hflags, rfl, rfl, rfl, rfl⟩,
    memoryKept_of_mem_eq rfl, rfl, rfl⟩
  case regs => rw [← regsKept_setReg s .a r.value r' hr']; cases r' <;> rfl

end

/-! ### The shared operations of section 43 -/

section
variable (s : State)

theorem stepReg_eq_writeReported (op : Byte → Byte) (r : Reg) (base : Nat) :
    stepReg op r base s = writeReported s s.hookCalls r (op (s.reg r)) base := by
  simp [stepReg, writeReported]

theorem stepAt_eq_setByte_storedByte (op : Byte → Byte) (m : EaMode) (base : Nat) :
    let b := memRead (resolveEa s m).state (resolveEa s m).ea
    ∃ n, stepAt op m base s =
      (((s.setByte (resolveEa s m).ea (storedByte b.state (resolveEa s m).ea (op b.value))).setHookCalls n).setF
        (setNZ s.f (op b.value))).addTicks (storeCost s.cfg base (resolveEa s m).crossed) := by
  intro b
  obtain ⟨k, hk, -⟩ := resolveEa_state s m
  obtain ⟨j, hj, -⟩ := memRead_state (resolveEa s m).state (resolveEa s m).ea
  obtain ⟨n, hn⟩ := memWrite_eq_setByte_storedByte b.state (resolveEa s m).ea (op b.value)
  refine ⟨n, ?_⟩
  have hstep : stepAt op m base s = ((memWrite b.state (resolveEa s m).ea (op b.value)).putNZ (op b.value)).addTicks
      (base + pagePenalty s.cfg .stores (resolveEa s m).crossed) := rfl
  have hb : b.state = s.setHookCalls j := by rw [hj, hk]; rfl
  rw [hstep, hn, add_pagePenalty_stores]
  generalize storedByte b.state (resolveEa s m).ea (op b.value) = v
  rw [hb]; rfl

/-- ADC and SBC end in `putSum` of the helper F.D chooses, with the overflow of the binary one or P5's free value (R114, R115). -/
theorem addSub_eq_putSum (op : DecimalOp) (bin : Byte → Byte → Bool → BinaryResult) (dec : Byte → Byte → Bool → CarryResult)
    (src : Source) (base : Nat) :
    let v := (loadSource s src).value
    ∃ n r overflow, addSub op bin dec src base s =
        (putSum (s.setHookCalls n) r overflow).addTicks (readCost base (loadSource s src).crossed) ∧
      (s.flag .d = false → r.value = (bin s.a v (s.flag .c)).value ∧ r.carry = (bin s.a v (s.flag .c)).carry ∧
        overflow = (bin s.a v (s.flag .c)).overflow) ∧
      (s.flag .d = true → r = dec s.a v (s.flag .c) ∧
        overflow = Config.decimalV op s.a v (s.flag .c) (s.flag .v)) := by
  intro v
  cases hd : s.flag .d with
  | false =>
    obtain ⟨n, hn⟩ := addSub_binary s op bin dec src base hd
    rw [add_pagePenalty_reads] at hn
    exact ⟨n, ⟨_, _⟩, _, hn, fun _ => ⟨rfl, rfl, rfl⟩, nofun⟩
  | true =>
    obtain ⟨n, hn⟩ := addSub_decimal s op bin dec src base hd
    rw [add_pagePenalty_reads] at hn
    exact ⟨n, _, _, hn, nofun, fun _ => ⟨rfl, rfl⟩⟩

end

/-! ### The rows of section 43, each from its table entry and its shared operation -/

section
variable {bytes : List Byte} {i : Instr} {src : Source} {base : Nat}

theorem sumForm_of_exec_eq {op : DecimalOp} {bin : Byte → Byte → Bool → BinaryResult}
    {dec : Byte → Byte → Bool → CarryResult} (hdecode : decode bytes = .ok i [])
    (hexec : ∀ s, exec i s = .next (addSub op bin dec src base s)) : SumForm op bin dec bytes i src base := by
  refine ⟨hdecode, fun s => ⟨_, hexec s, ?_⟩⟩
  obtain ⟨n, r, overflow, hsum, hbinary, hdecimal⟩ := addSub_eq_putSum s op bin dec src base
  obtain ⟨hvalue, hcarry, hoverflow, hkept⟩ := putSum_spec s hsum
  refine ⟨fun hd => ?binary, fun hd => ?decimal, hkept⟩
  case binary =>
    obtain ⟨hv, hc, ho⟩ := hbinary hd
    exact ⟨hvalue.trans hv, hcarry.trans hc, hoverflow.trans ho⟩
  case decimal =>
    obtain ⟨hr, ho⟩ := hdecimal hd
    exact ⟨hr ▸ hvalue, hr ▸ hcarry, hoverflow.trans ho⟩

theorem compareForm_of_exec_eq {r : Reg} (hdecode : decode bytes = .ok i [])
    (hexec : ∀ s, exec i s = .next (compareReg r src base s)) : CompareForm r bytes i src base := by
  refine ⟨hdecode, fun s => ⟨_, hexec s, ?_⟩⟩
  obtain ⟨n, hcompare⟩ := compareReg_eq s r src base
  rw [add_pagePenalty_reads] at hcompare
  have hf : (compareReg r src base s).f = compareFlags s.f (s.reg r) (loadSource s src).value := by rw [hcompare]; rfl
  obtain ⟨hcarry, hzero, hnegative⟩ := flag_of_f_eq_compareFlags hf
  exact ⟨hcarry, hzero, hnegative, setF_spec s hcompare (flagsKept_of_f_eq_compareFlags hf)⟩

theorem memStepForm_of_exec_eq {op : Byte → Byte} {m : EaMode} (hdecode : decode bytes = .ok i [])
    (hexec : ∀ s, exec i s = .next (stepAt op m base s)) : MemStepForm op bytes i m base := by
  refine ⟨hdecode, fun s => ⟨_, hexec s, ?_⟩⟩
  obtain ⟨n, hstep⟩ := stepAt_eq_setByte_storedByte s op m base
  have hf : (stepAt op m base s).f = setNZ s.f (op (memRead (resolveEa s m).state (resolveEa s m).ea).value) := by
    rw [hstep]; rfl
  obtain ⟨hstored, hkept⟩ := setByte_setF_spec s hstep (flagsKept_of_f_eq_setNZ hf)
  exact ⟨hstored, reportsNZ_of_f_eq_setNZ hf, hkept⟩

theorem registerForm_of_exec_eq_stepReg {r : Reg} {opcode : Byte} {op : Byte → Byte} (hdecode : decode [opcode] = .ok i [])
    (hexec : ∀ s, exec i s = .next (stepReg op r 2 s)) : RegisterForm r opcode i (fun s => op (s.reg r)) := by
  refine ⟨hdecode, fun s => ⟨_, hexec s, ?_⟩⟩
  exact writeReported_spec s (stepReg_eq_writeReported s op r 2)

end

end Sys2Proof.Machine

namespace Sys2Proof.Proofs
open Sys2Proof Sys2Proof.Machine

/-- Settles O41: every row of ADC is an `addSub` with the adding helpers. -/
theorem adcAddsWithCarry : Obligations.ADCAddsWithCarry := by
  intro v z w
  exact ⟨sumForm_of_exec_eq (decode_of_two rfl) fun _ => rfl,
    sumForm_of_exec_eq (decode_of_two rfl) fun _ => rfl,
    sumForm_of_exec_eq (decode_of_two rfl) fun _ => rfl,
    sumForm_of_exec_eq (decode_of_three rfl) fun _ => rfl,
    sumForm_of_exec_eq (decode_of_two rfl) fun _ => rfl,
    sumForm_of_exec_eq (decode_of_two rfl) fun _ => rfl,
    sumForm_of_exec_eq (decode_of_three rfl) fun _ => rfl,
    sumForm_of_exec_eq (decode_of_three rfl) fun _ => rfl⟩

/-- Settles O42: every row of SBC is an `addSub` with the subtracting helpers. -/
theorem sbcSubtractsWithBorrow : Obligations.SBCSubtractsWithBorrow := by
  intro v z w
  exact ⟨sumForm_of_exec_eq (decode_of_two rfl) fun _ => rfl,
    sumForm_of_exec_eq (decode_of_two rfl) fun _ => rfl,
    sumForm_of_exec_eq (decode_of_two rfl) fun _ => rfl,
    sumForm_of_exec_eq (decode_of_three rfl) fun _ => rfl,
    sumForm_of_exec_eq (decode_of_two rfl) fun _ => rfl,
    sumForm_of_exec_eq (decode_of_two rfl) fun _ => rfl,
    sumForm_of_exec_eq (decode_of_three rfl) fun _ => rfl,
    sumForm_of_exec_eq (decode_of_three rfl) fun _ => rfl⟩

/-- Settles O43: every row is a `compareReg` of its register, which does not look at F.D. -/
theorem comparesSetCarryZeroNegative : Obligations.ComparesSetCarryZeroNegative := by
  intro v z w
  exact ⟨compareForm_of_exec_eq (decode_of_two rfl) fun _ => rfl,
    compareForm_of_exec_eq (decode_of_two rfl) fun _ => rfl,
    compareForm_of_exec_eq (decode_of_two rfl) fun _ => rfl,
    compareForm_of_exec_eq (decode_of_three rfl) fun _ => rfl,
    compareForm_of_exec_eq (decode_of_two rfl) fun _ => rfl,
    compareForm_of_exec_eq (decode_of_two rfl) fun _ => rfl,
    compareForm_of_exec_eq (decode_of_three rfl) fun _ => rfl,
    compareForm_of_exec_eq (decode_of_three rfl) fun _ => rfl,
    compareForm_of_exec_eq (decode_of_two rfl) fun _ => rfl,
    compareForm_of_exec_eq (decode_of_two rfl) fun _ => rfl,
    compareForm_of_exec_eq (decode_of_three rfl) fun _ => rfl,
    compareForm_of_exec_eq (decode_of_two rfl) fun _ => rfl,
    compareForm_of_exec_eq (decode_of_two rfl) fun _ => rfl,
    compareForm_of_exec_eq (decode_of_three rfl) fun _ => rfl⟩

/-- Settles O44: every row is a `stepAt` of its mode. -/
theorem memoryIncrementDecrement : Obligations.MemoryIncrementDecrement := by
  intro z w
  exact ⟨memStepForm_of_exec_eq (decode_of_two rfl) fun _ => rfl,
    memStepForm_of_exec_eq (decode_of_three rfl) fun _ => rfl,
    memStepForm_of_exec_eq (decode_of_two rfl) fun _ => rfl,
    memStepForm_of_exec_eq (decode_of_three rfl) fun _ => rfl,
    memStepForm_of_exec_eq (decode_of_two rfl) fun _ => rfl,
    memStepForm_of_exec_eq (decode_of_three rfl) fun _ => rfl,
    memStepForm_of_exec_eq (decode_of_two rfl) fun _ => rfl,
    memStepForm_of_exec_eq (decode_of_three rfl) fun _ => rfl⟩

/-- Settles O45: every row is a `stepReg` of its register. -/
theorem registerIncrementDecrement : Obligations.RegisterIncrementDecrement :=
  ⟨registerForm_of_exec_eq_stepReg (op := incByte) (decode_of_one rfl) fun _ => rfl,
    registerForm_of_exec_eq_stepReg (op := incByte) (decode_of_one rfl) fun _ => rfl,
    registerForm_of_exec_eq_stepReg (op := decByte) (decode_of_one rfl) fun _ => rfl,
    registerForm_of_exec_eq_stepReg (op := decByte) (decode_of_one rfl) fun _ => rfl⟩

end Sys2Proof.Proofs
end

section
/-!
PROOFS. Logic, BIT, shifts and rotates (44_logic_shift.md): the F that BIT and a shift leave, the shared operations of the section
in terms of those of sections 42 and 43, and each row from its table entry and its shared operation.
-/
namespace Sys2Proof.Machine

/-! ### The F that BIT and a shift leave (10_state.md R24) -/

section
variable {s t : State}

/-- Z tests A and the operand, N and V copy bits 7 and 6 of the operand, every other bit is as it was (R147). -/
theorem flags_of_f_eq_bitTestFlags {a m : Byte} (h : t.f = bitTestFlags s.f a m) :
    t.flag .z = decide (a &&& m = 0#8) ∧ t.flag .n = m.getLsbD 7 ∧ t.flag .v = m.getLsbD 6 ∧ FlagsKept [.n, .v, .z] s t := by
  have hbit (i : Nat) : t.f.getLsbD i = if i = 6 then m.getLsbD 6 else if i = 7 then m.getLsbD 7
      else if i = 1 then a &&& m == 0#8 else s.f.getLsbD i := by
    rw [h, getLsbD_bitTestFlags]
  refine ⟨hbit 1, hbit 7, hbit 6, fun i hi => ?others⟩
  case others =>
    have hn : i ≠ 7 := hi .n (by simp)
    have hv : i ≠ 6 := hi .v (by simp)
    have hz : i ≠ 1 := hi .z (by simp)
    rw [hbit, if_neg hv, if_neg hn, if_neg hz]

/-- C is the bit shifted out, N and Z report the result, every other bit is as it was (R148 to R151). -/
theorem flags_of_f_eq_shift {c : Bool} {r : Byte} (h : t.f = setNZ (flagPut s.f .c c) r) :
    t.flag .c = c ∧ ReportsNZ r t ∧ FlagsKept [.n, .z, .c] s t := by
  have hbit (i : Nat) : t.f.getLsbD i = if i = 1 then r == 0#8 else if i = 7 then r.getLsbD 7
      else if i = 0 then c else s.f.getLsbD i := by
    rw [h, getLsbD_setNZ, getLsbD_flagPut]; rfl
  refine ⟨hbit 0, reportsNZ_of_f_eq_setNZ h, fun i hi => ?others⟩
  case others =>
    have hn : i ≠ 7 := hi .n (by simp)
    have hz : i ≠ 1 := hi .z (by simp)
    have hc : i ≠ 0 := hi .c (by simp)
    rw [hbit, if_neg hz, if_neg hn, if_neg hc]

end

/-! ### The shift helpers as a result and a bit out, with the carry in written out as a byte (41_alu.md R117) -/

theorem aslByte_eq (v : Byte) (c : Bool) : aslByte v c = { value := v <<< 1, carry := v.getLsbD 7 } := rfl

theorem lsrByte_eq (v : Byte) (c : Bool) : lsrByte v c = { value := v >>> 1, carry := v.getLsbD 0 } := rfl

theorem rolByte_eq (v : Byte) (c : Bool) :
    rolByte v c = { value := (v <<< 1) ||| (if c then 0x01#8 else 0x00#8), carry := v.getLsbD 7 } := by
  cases c <;> rfl

theorem rorByte_eq (v : Byte) (c : Bool) :
    rorByte v c = { value := (v >>> 1) ||| (if c then 0x80#8 else 0x00#8), carry := v.getLsbD 0 } := by
  cases c <;> rfl

/-! ### The shared operations of section 44 -/

section
variable (s : State)

theorem logicA_eq_writeReported (op : Byte → Byte → Byte) (src : Source) (base : Nat) :
    ∃ n, logicA op src base s =
      writeReported s n .a (op s.a (loadSource s src).value) (readCost base (loadSource s src).crossed) := by
  obtain ⟨n, hn⟩ := logicA_eq s op src base
  exact ⟨n, by rw [hn, add_pagePenalty_reads]; rfl⟩

/-- A shift of A is a reported write of A in the state where the bit shifted out is already in C. -/
theorem shiftAt_acc_eq_writeReported (op : Byte → Bool → CarryResult) (base : Nat) :
    shiftAt op .acc base s =
      writeReported (s.putFlag .c (op s.a (s.flag .c)).carry) s.hookCalls .a (op s.a (s.flag .c)).value base := by
  rw [shiftAt_acc]; rfl

/-- A shift of a byte of memory makes the accesses of an increment (20_memory.md R54) and differs from it in F alone. -/
theorem shiftAt_mem_eq_stepAt (op : Byte → Bool → CarryResult) (m : EaMode) (base : Nat) :
    let r := op (memRead (resolveEa s m).state (resolveEa s m).ea).value (s.flag .c)
    shiftAt op (.mem m) base s =
      (stepAt (fun v => (op v (s.flag .c)).value) m base s).setF (setNZ (flagPut s.f .c r.carry) r.value) := by
  intro r
  have hf : (memWrite (memRead (resolveEa s m).state (resolveEa s m).ea).state (resolveEa s m).ea r.value).f = s.f := by simp
  rw [← hf]; rfl

/-- What BIT does where its mode cannot cross a page. -/
theorem bitTest_spec {m : EaMode} (base : Nat) (hcrossed : (loadSource s (.mem m)).crossed = false) :
    let v := (loadSource s (.mem m)).value
    let t := bitTest m base s
    t.flag .z = decide (s.a &&& v = 0#8) ∧ t.flag .n = v.getLsbD 7 ∧ t.flag .v = v.getLsbD 6 ∧
      Frame [] [.n, .v, .z] s t ∧ MemoryKept s t ∧ t.pc = s.pc ∧ t.tickcount = s.tickcount + base := by
  intro v t
  obtain ⟨n, hn⟩ := bitTest_eq s m base
  rw [add_pagePenalty_reads, hcrossed] at hn
  have hf : t.f = bitTestFlags s.f s.a v := by simp only [t, hn]; rfl
  obtain ⟨hzero, hnegative, hoverflow, hkept⟩ := flags_of_f_eq_bitTestFlags hf
  exact ⟨hzero, hnegative, hoverflow, setF_spec s hn hkept⟩

end

/-! ### The rows of section 44, each from its table entry and its shared operation -/

section
variable {bytes : List Byte} {i : Instr} {base : Nat}

theorem logicForm_of_exec_eq {op : Byte → Byte → Byte} {src : Source} (hdecode : decode bytes = .ok i [])
    (hexec : ∀ s, exec i s = .next (logicA op src base s)) : LogicForm op bytes i src base := by
  refine ⟨hdecode, fun s => ⟨_, hexec s, ?_⟩⟩
  obtain ⟨n, hlogic⟩ := logicA_eq_writeReported s op src base
  exact writeReported_spec s hlogic

section
variable {op : Byte → Bool → CarryResult} {value : Byte → Bool → Byte} {carry : Byte → Bool}
  (hop : ∀ v c, op v c = { value := value v c, carry := carry v })
include hop

theorem accShiftForm_of_exec_eq {opcode : Byte} (hdecode : decode [opcode] = .ok i [])
    (hexec : ∀ s, exec i s = .next (shiftAt op .acc 2 s)) : AccShiftForm value carry opcode i := by
  refine ⟨hdecode, fun s => ⟨_, hexec s, ?_⟩⟩
  have hshift := shiftAt_acc_eq_writeReported s op 2
  rw [hop] at hshift
  have hf : (shiftAt op .acc 2 s).f = setNZ (flagPut s.f .c (carry s.a)) (value s.a (s.flag .c)) := by rw [hshift]; rfl
  obtain ⟨hcarry, hNZ, hflags⟩ := flags_of_f_eq_shift hf
  obtain ⟨hvalue, -, ⟨hregs, -, hhost⟩, hmem, hpc, hticks⟩ := writeReported_spec _ hshift
  exact ⟨hvalue, hcarry, hNZ, ⟨fun r hr => by simpa using hregs r hr, hflags, hhost⟩, hmem, hpc, hticks⟩

theorem memShiftForm_of_exec_eq {m : EaMode} (hdecode : decode bytes = .ok i [])
    (hexec : ∀ s, exec i s = .next (shiftAt op (.mem m) base s)) : MemShiftForm value carry bytes i m base := by
  refine ⟨hdecode, fun s => ⟨_, hexec s, ?_⟩⟩
  obtain ⟨n, hstep⟩ := stepAt_eq_setByte_storedByte s (fun v => (op v (s.flag .c)).value) m base
  have hshift := shiftAt_mem_eq_stepAt s op m base
  simp only [hop] at hstep hshift
  have hf := congrArg State.f hshift
  obtain ⟨hcarry, hNZ, hflags⟩ := flags_of_f_eq_shift hf
  rw [hstep] at hshift
  obtain ⟨hstored, hkept⟩ := setByte_setF_spec s hshift hflags
  exact ⟨hstored, hcarry, hNZ, hkept⟩

end

end

end Sys2Proof.Machine

namespace Sys2Proof.Proofs
open Sys2Proof Sys2Proof.Machine

/-- Settles O46: every row is a `logicA` of its bitwise operation. -/
theorem logicOnAccumulator : Obligations.LogicOnAccumulator := by
  intro v z w
  exact ⟨logicForm_of_exec_eq (decode_of_two rfl) fun _ => rfl,
    logicForm_of_exec_eq (decode_of_two rfl) fun _ => rfl,
    logicForm_of_exec_eq (decode_of_two rfl) fun _ => rfl,
    logicForm_of_exec_eq (decode_of_three rfl) fun _ => rfl,
    logicForm_of_exec_eq (decode_of_two rfl) fun _ => rfl,
    logicForm_of_exec_eq (decode_of_two rfl) fun _ => rfl,
    logicForm_of_exec_eq (decode_of_three rfl) fun _ => rfl,
    logicForm_of_exec_eq (decode_of_three rfl) fun _ => rfl,
    logicForm_of_exec_eq (decode_of_two rfl) fun _ => rfl,
    logicForm_of_exec_eq (decode_of_two rfl) fun _ => rfl,
    logicForm_of_exec_eq (decode_of_two rfl) fun _ => rfl,
    logicForm_of_exec_eq (decode_of_three rfl) fun _ => rfl,
    logicForm_of_exec_eq (decode_of_two rfl) fun _ => rfl,
    logicForm_of_exec_eq (decode_of_two rfl) fun _ => rfl,
    logicForm_of_exec_eq (decode_of_three rfl) fun _ => rfl,
    logicForm_of_exec_eq (decode_of_three rfl) fun _ => rfl,
    logicForm_of_exec_eq (decode_of_two rfl) fun _ => rfl,
    logicForm_of_exec_eq (decode_of_two rfl) fun _ => rfl,
    logicForm_of_exec_eq (decode_of_two rfl) fun _ => rfl,
    logicForm_of_exec_eq (decode_of_three rfl) fun _ => rfl,
    logicForm_of_exec_eq (decode_of_two rfl) fun _ => rfl,
    logicForm_of_exec_eq (decode_of_two rfl) fun _ => rfl,
    logicForm_of_exec_eq (decode_of_three rfl) fun _ => rfl,
    logicForm_of_exec_eq (decode_of_three rfl) fun _ => rfl⟩

/-- Settles O47: both rows are a `bitTest` of a mode that crosses no page. -/
theorem bitTestsMemory : Obligations.BITTestsMemory := by
  intro z w
  exact ⟨decode_of_two rfl, fun s => ⟨_, rfl, bitTest_spec s (m := .zp z) 3 rfl⟩,
    decode_of_three rfl, fun s => ⟨_, rfl, bitTest_spec s (m := .abs w) 4 rfl⟩⟩

/-- Settles O48: every row is a `shiftAt` with `aslByte` or `lsrByte`. -/
theorem shiftsOnAccumulatorAndMemory : Obligations.ShiftsOnAccumulatorAndMemory := by
  intro z w
  exact ⟨memShiftForm_of_exec_eq aslByte_eq (decode_of_two rfl) fun _ => rfl,
    accShiftForm_of_exec_eq aslByte_eq (decode_of_one rfl) fun _ => rfl,
    memShiftForm_of_exec_eq aslByte_eq (decode_of_three rfl) fun _ => rfl,
    memShiftForm_of_exec_eq aslByte_eq (decode_of_two rfl) fun _ => rfl,
    memShiftForm_of_exec_eq aslByte_eq (decode_of_three rfl) fun _ => rfl,
    memShiftForm_of_exec_eq lsrByte_eq (decode_of_two rfl) fun _ => rfl,
    accShiftForm_of_exec_eq lsrByte_eq (decode_of_one rfl) fun _ => rfl,
    memShiftForm_of_exec_eq lsrByte_eq (decode_of_three rfl) fun _ => rfl,
    memShiftForm_of_exec_eq lsrByte_eq (decode_of_two rfl) fun _ => rfl,
    memShiftForm_of_exec_eq lsrByte_eq (decode_of_three rfl) fun _ => rfl⟩

/-- Settles O49: every row is a `shiftAt` with `rolByte` or `rorByte`. -/
theorem rotatesThroughCarry : Obligations.RotatesThroughCarry := by
  intro z w
  exact ⟨memShiftForm_of_exec_eq rolByte_eq (decode_of_two rfl) fun _ => rfl,
    accShiftForm_of_exec_eq rolByte_eq (decode_of_one rfl) fun _ => rfl,
    memShiftForm_of_exec_eq rolByte_eq (decode_of_three rfl) fun _ => rfl,
    memShiftForm_of_exec_eq rolByte_eq (decode_of_two rfl) fun _ => rfl,
    memShiftForm_of_exec_eq rolByte_eq (decode_of_three rfl) fun _ => rfl,
    memShiftForm_of_exec_eq rorByte_eq (decode_of_two rfl) fun _ => rfl,
    accShiftForm_of_exec_eq rorByte_eq (decode_of_one rfl) fun _ => rfl,
    memShiftForm_of_exec_eq rorByte_eq (decode_of_three rfl) fun _ => rfl,
    memShiftForm_of_exec_eq rorByte_eq (decode_of_two rfl) fun _ => rfl,
    memShiftForm_of_exec_eq rorByte_eq (decode_of_three rfl) fun _ => rfl⟩

end Sys2Proof.Proofs
end

section
/-!
PROOFS. Stack, flag and no-operation instructions (45_stack_flags.md): what a push and a pop do to the whole state, the F that a
flag write and a pulled byte leave, and each row of the section from its table entry and its shared operation.
-/
namespace Sys2Proof.Machine

/-! ### Frames in sequence -/

/-- What two operations in a row may change is what either may. -/
theorem Frame.trans {rs rs' : List Reg} {fs fs' : List Flag} {s t u : State} (hst : Frame rs fs s t) (htu : Frame rs' fs' t u) :
    Frame (rs' ++ rs) (fs' ++ fs) s u := by
  obtain ⟨hregs, hflags, hnmi, hirq, hstatus, hcfg⟩ := hst
  obtain ⟨hregs', hflags', hnmi', hirq', hstatus', hcfg'⟩ := htu
  refine ⟨fun r hr => ?regs, fun i hi => ?flags, hnmi'.trans hnmi, hirq'.trans hirq, hstatus'.trans hstatus, hcfg'.trans hcfg⟩
  case regs =>
    obtain ⟨hr', hr⟩ := not_or.mp (mt List.mem_append.mpr hr)
    exact (hregs' r hr').trans (hregs r hr)
  case flags =>
    exact (hflags' i fun fl hfl => hi fl (List.mem_append_left fs hfl)).trans
      (hflags i fun fl hfl => hi fl (List.mem_append_right fs' hfl))

/-! ### The F that a flag write and a pulled byte leave (10_state.md R24, R29, R30) -/

section
variable {s t : State}

theorem flagsKept_of_f_eq_flagPut {fl : Flag} {b : Bool} (h : t.f = flagPut s.f fl b) : FlagsKept [fl] s t := by
  intro i hi
  rw [h, getLsbD_flagPut, if_neg (hi fl (List.mem_singleton_self fl))]

/-- A pulled F has bit 4 at 0 and bit 5 at 1 whatever byte was popped, and its other bits from that byte (R155, R177). -/
theorem bits_of_f_eq_pulledFlags {v : Byte} (h : t.f = pulledFlags v) :
    t.f.getLsbD 4 = false ∧ t.f.getLsbD 5 = true ∧ ∀ i, i ≠ 4 → i ≠ 5 → t.f.getLsbD i = v.getLsbD i := by
  rw [h]
  refine ⟨getLsbD_pulledFlags v 4, getLsbD_pulledFlags v 5, fun i h4 h5 => ?_⟩
  rw [getLsbD_pulledFlags, if_neg h4, if_neg h5]

end

/-! ### The stack operations (20_memory.md R57, R58) -/

section
variable (s : State)

/-- `push8_eq` with the byte named: it is the one `storedByte` speaks of. -/
theorem push8_eq_setByte_storedByte (v : Byte) :
    ∃ n, push8 s v =
      ((s.setByte (stackAddr s.sp) (storedByte s (stackAddr s.sp) v)).setHookCalls n).setSp (s.sp - 1#8) := by
  obtain ⟨n, hn⟩ := memWrite_eq_setByte_storedByte s (stackAddr s.sp) v
  exact ⟨n, by rw [push8, hn]; rfl⟩

theorem push8_byteAt_stackAddr (v : Byte) :
    (push8 s v).byteAt (stackAddr s.sp) = storedByte s (stackAddr s.sp) v := by
  obtain ⟨n, hn⟩ := push8_eq_setByte_storedByte s v
  simp [hn]

theorem push8_memoryKeptExcept (v : Byte) : MemoryKeptExcept [stackAddr s.sp] s (push8 s v) := by
  intro a ha
  exact memWrite_byteAt_ne s v (by simpa using ha)

theorem push8_frame (v : Byte) : Frame [.sp] [] s (push8 s v) := by
  obtain ⟨v', n, hn, -, -⟩ := push8_eq s v
  rw [hn]
  exact ⟨regsKept_setReg s .sp (s.sp - 1#8), flagsKept_of_f_eq rfl, rfl, rfl, rfl, rfl⟩

theorem pop8_frame : Frame [.sp] [] s (pop8 s).state := by
  obtain ⟨n, hn, -⟩ := pop8_state s
  rw [hn]
  exact ⟨regsKept_setReg s .sp (s.sp + 1#8), flagsKept_of_f_eq rfl, rfl, rfl, rfl, rfl⟩

/-- PLA is a reported write of A in the state after the pop (R154). -/
theorem pullA_eq_writeReported (base : Nat) :
    pullA base s = writeReported (pop8 s).state (pop8 s).state.hookCalls .a (pop8 s).value base := rfl

theorem pullA_spec (base : Nat) :
    let t := pullA base s
    t.a = (pop8 s).value ∧ ReportsNZ (pop8 s).value t ∧ t.sp = s.sp + 1#8 ∧
      Frame [.a, .sp] [.n, .z] s t ∧ MemoryKept s t ∧ t.pc = s.pc ∧ t.tickcount = s.tickcount + base := by
  intro t
  obtain ⟨hvalue, hNZ, hframe, hmem, hpc, hticks⟩ := writeReported_spec _ (pullA_eq_writeReported s base)
  have hsp : t.sp = (pop8 s).state.sp := hframe.1 .sp (by decide)
  exact ⟨hvalue, hNZ, hsp.trans (pop8_sp s), (pop8_frame s).trans hframe, fun a => (hmem a).trans (pop8_byteAt s a),
    hpc.trans (pop8_pc s), by rw [hticks, pop8_tickcount]⟩

theorem pullFlags_spec :
    let t := pullFlags s
    t.f = pulledFlags (pop8 s).value ∧ t.sp = s.sp + 1#8 ∧ RegsKept [.sp] s t ∧ HostStateKept s t ∧ MemoryKept s t ∧
      t.pc = s.pc ∧ t.tickcount = s.tickcount := by
  obtain ⟨hregs, -, hhost⟩ := pop8_frame s
  exact ⟨rfl, pop8_sp s, fun r hr => (State.setF_reg _ _ r).trans (hregs r hr), hhost, pop8_byteAt s, pop8_pc s,
    pop8_tickcount s⟩

end

/-! ### A fetch and a step of an instruction of one byte (40_execution.md R84, R88) -/

section
variable {s t : State} {i : Instr}

theorem fetch_of_one (h : decodeByte (memRead s s.pc).value = .one i) :
    fetch s = .instr i ((memRead s s.pc).state.setPc (s.pc + 1#16)) := by
  simp [fetch, h]

theorem step_of_fetch_instr (hstatus : s.status = .running) (hfetch : fetch s = .instr i t) : step s = exec i t := by
  simp only [step, hstatus, hfetch]

end

/-! ### The rows of section 45, each from its table entry and its shared operation -/

section
variable {op : Byte} {i : Instr}

theorem pushForm_of_exec_eq {pushed : State → Byte} (hdecode : decode [op] = .ok i [])
    (hexec : ∀ s, exec i s = .next ((push8 s (pushed s)).addTicks 3)) : PushForm op i pushed := by
  refine ⟨hdecode, fun s => ⟨_, hexec s, ?_⟩⟩
  exact ⟨push8_byteAt_stackAddr s _, push8_sp s _, push8_memoryKeptExcept s _, push8_frame s _, push8_pc s _,
    congrArg (· + 3) (push8_tickcount s _)⟩

theorem flagForm_of_exec_eq {fl : Flag} {b : Bool} (hdecode : decode [op] = .ok i [])
    (hexec : ∀ s, exec i s = .next ((s.setF (flagPut s.f fl b)).addTicks 2)) : FlagForm fl b op i := by
  refine ⟨hdecode, fun s => ⟨_, hexec s, ?written, ?kept⟩⟩
  case written => exact (flagTest_flagPut s.f fl fl b).trans (if_pos rfl)
  case kept => exact setF_spec s (n := s.hookCalls) rfl (flagsKept_of_f_eq_flagPut rfl)

end

end Sys2Proof.Machine

namespace Sys2Proof.Proofs
open Sys2Proof Sys2Proof.Machine

/-- Settles O50: both rows are a `push8`, of A and of F with bits 4 and 5 set. -/
theorem pushesOfAAndFlags : Obligations.PushesOfAAndFlags :=
  ⟨pushForm_of_exec_eq (decode_of_one rfl) fun _ => rfl,
    pushForm_of_exec_eq (decode_of_one rfl) fun _ => rfl⟩

/-- Settles O51: PLA is a reported write of A after the pop, PLP a `pullFlags`. -/
theorem pullsOfAAndFlags : Obligations.PullsOfAAndFlags := by
  refine ⟨decode_of_one rfl, decode_of_one rfl, fun s => ⟨⟨_, rfl, pullA_spec s 4⟩, ⟨_, rfl, ?plp⟩⟩⟩
  case plp =>
    obtain ⟨hf, hsp, hregs, hhost, hmem, hpc, hticks⟩ := pullFlags_spec s
    obtain ⟨hbit4, hbit5, hothers⟩ := bits_of_f_eq_pulledFlags hf
    exact ⟨hbit4, hbit5, hothers, hsp, fun r hr => (State.addTicks_reg _ 4 r).trans (hregs r hr), hhost, hmem, hpc,
      congrArg (· + 4) hticks⟩

/-- Settles O52: the seven flag rows write one bit of F; NOP's step is its fetch and 2 cycles. -/
theorem flagInstructionsAndNop : Obligations.FlagInstructionsAndNop := by
  refine ⟨flagForm_of_exec_eq (decode_of_one rfl) fun _ => rfl,
    flagForm_of_exec_eq (decode_of_one rfl) fun _ => rfl,
    flagForm_of_exec_eq (decode_of_one rfl) fun _ => rfl,
    flagForm_of_exec_eq (decode_of_one rfl) fun _ => rfl,
    flagForm_of_exec_eq (decode_of_one rfl) fun _ => rfl,
    flagForm_of_exec_eq (decode_of_one rfl) fun _ => rfl,
    flagForm_of_exec_eq (decode_of_one rfl) fun _ => rfl,
    decode_of_one rfl, fun s => ⟨rfl, fun hrunning hop => ?step⟩⟩
  case step =>
    have hfetch := fetch_of_one (s := s) (i := .nop) (by rw [hop]; rfl)
    rw [step_of_fetch_instr hrunning hfetch, ← memRead_tickcount s s.pc]; rfl

end Sys2Proof.Proofs
end

section
/-!
PROOFS. Branches, jumps, subroutines, BRK and RTI (46_control.md): the target of a branch and of an indirect jump as numbers, what
two bytes pushed or popped do to the whole state, trap entry and trap return, and each row of the section from its table entry and
its shared operation.
-/
namespace Sys2Proof.Machine

/-! ### Frames and kept memory in sequence -/

section
variable {rs rs' : List Reg} {fs fs' : List Flag} {as bs : List Word} {s t u : State}

theorem Frame.mono (h : Frame rs fs s t) (hrs : rs ⊆ rs') (hfs : fs ⊆ fs') : Frame rs' fs' s t := by
  obtain ⟨hregs, hflags, hhost⟩ := h
  exact ⟨fun r hr => hregs r (mt (@hrs r) hr), fun i hi => hflags i fun fl hfl => hi fl (hfs hfl), hhost⟩

theorem MemoryKeptExcept.trans (hst : MemoryKeptExcept as s t) (htu : MemoryKeptExcept bs t u) :
    MemoryKeptExcept (as ++ bs) s u := by
  intro a ha
  obtain ⟨has, hbs⟩ := not_or.mp (mt List.mem_append.mpr ha)
  exact (htu a hbs).trans (hst a has)

end

section
variable (s : State)

theorem frame_setHookCalls (n : Nat) : Frame [] [] s (s.setHookCalls n) :=
  ⟨fun r _ => State.setHookCalls_reg s n r, flagsKept_of_f_eq rfl, rfl, rfl, rfl, rfl⟩

theorem frame_setPc (w : Word) : Frame [] [] s (s.setPc w) :=
  ⟨fun r _ => State.setPc_reg s w r, flagsKept_of_f_eq rfl, rfl, rfl, rfl, rfl⟩

theorem frame_addTicks (n : Nat) : Frame [] [] s (s.addTicks n) :=
  ⟨fun r _ => State.addTicks_reg s n r, flagsKept_of_f_eq rfl, rfl, rfl, rfl, rfl⟩

theorem frame_putFlag (fl : Flag) (b : Bool) : Frame [] [fl] s (s.putFlag fl b) :=
  ⟨fun r _ => State.setF_reg s _ r, flagsKept_of_f_eq_flagPut rfl, rfl, rfl, rfl, rfl⟩

/-! ### Branches (R164) -/

/-- A branch not taken costs its base; one taken goes to the target, and pays 2 cycles more than the base, or 1 where the target is
in the page of PC_next (40_execution.md R102). -/
theorem branch_spec (cond : Bool) (rel : Byte) (base : Nat) :
    let t := branch cond rel base s
    (cond = true → t.pc = branchTarget s.pc rel ∧
      t.tickcount = s.tickcount + (if t.pc.toNat / 256 = s.pc.toNat / 256 then base + 1 else base + 2)) ∧
    (cond = false → t.pc = s.pc ∧ t.tickcount = s.tickcount + base) ∧ Frame [] [] s t ∧ MemoryKept s t := by
  cases cond with
  | false => exact ⟨nofun, fun _ => ⟨rfl, rfl⟩, frame_addTicks s base, memoryKept_of_mem_eq rfl⟩
  | true =>
    refine ⟨fun _ => ⟨rfl, ?cost⟩, nofun, (frame_setPc s _).trans (frame_addTicks _ _), memoryKept_of_mem_eq rfl⟩
    case cost =>
      have hticks : (branch true rel base s).tickcount =
        s.tickcount + (base + (if page (branchTarget s.pc rel) != page s.pc then 2 else 1)) := rfl
      have hpc : (branch true rel base s).pc = branchTarget s.pc rel := rfl
      rw [hticks, hpc, page_bne]
      by_cases hpage : (branchTarget s.pc rel).toNat / 256 = s.pc.toNat / 256 <;> simp [hpage]

/-! ### The indirect jump (R95, R173) -/

theorem and_highMask_toNat (w : Word) : (w &&& 0xFF00#16).toNat = w.toNat / 256 * 256 := by
  have hmask : w &&& 0xFF00#16 = (w >>> 8) <<< 8 := by
    apply BitVec.eq_of_getLsbD_eq
    intro i hi
    interval_cases i <;> simp
  rw [hmask, BitVec.toNat_shiftLeft, BitVec.toNat_ushiftRight, Nat.shiftLeft_eq, Nat.shiftRight_eq_div_pow]
  omega

theorem and_lowMask_toNat (w : Word) : (w &&& 0x00FF#16).toNat = w.toNat % 256 := by
  rw [BitVec.toNat_and]
  exact Nat.and_two_pow_sub_one_eq_mod w.toNat 8

/-- A page and an offset in it, joined. -/
theorem high_or_low_toNat (p o : Word) :
    ((p &&& 0xFF00#16) ||| (o &&& 0x00FF#16)).toNat = p.toNat / 256 * 256 + o.toNat % 256 := by
  have hlow : o.toNat % 256 < 2 ^ 8 := Nat.mod_lt _ (by decide)
  rw [BitVec.toNat_or, and_highMask_toNat, and_lowMask_toNat, Nat.mul_comm]
  exact (Nat.two_pow_add_eq_or_of_lt hlow _).symm

/-- The high byte of the target is read at the next address, or with P2 at the next address of the pointer's page (R95). -/
theorem resolveIndirect_value (w : Word) :
    ∃ hiAddr : Word,
      hiAddr.toNat = (if s.cfg.jmpIndPageWrap then w.toNat / 256 * 256 + (w.toNat + 1) % 256 else (w.toNat + 1) % 65536) ∧
      (resolveIndirect s w).value = mkWord (memRead (memRead s w).state hiAddr).value (memRead s w).value := by
  have hnext : (w + 1#16).toNat = (w.toNat + 1) % 65536 := BitVec.toNat_add w 1#16
  refine ⟨_, ?_, rfl⟩
  split
  case isTrue => rw [high_or_low_toNat, hnext]; omega
  case isFalse => exact hnext

theorem resolveIndirect_frame (w : Word) : Frame [] [] s (resolveIndirect s w).state := by
  obtain ⟨n, hn, -⟩ := resolveIndirect_state s w
  rw [hn]
  exact frame_setHookCalls s n

theorem jumpIndirect_spec (w : Word) :
    let t := jumpIndirect w s
    t.pc = (resolveIndirect s w).value ∧ t.tickcount = s.tickcount + jmpIndBase s.cfg ∧ Frame [] [] s t ∧ MemoryKept s t :=
  ⟨rfl, congrArg (· + jmpIndBase s.cfg) (resolveIndirect_tickcount s w),
    ((resolveIndirect_frame s w).trans (frame_setPc _ _)).trans (frame_addTicks _ _), resolveIndirect_byteAt s w⟩

/-! ### Two bytes pushed or popped (20_memory.md R59, R60) -/

/-- SP moved down by less than 256 designates another address, also where it wraps. -/
theorem stackAddr_ne_of_sub {sp k : Byte} (hk : k ≠ 0#8) : stackAddr sp ≠ stackAddr (sp - k) := by
  intro h
  have := stackAddr_injective h
  bv_omega

/-- The high byte goes to the address of SP, and the push of the low byte leaves it (R59). -/
theorem push16_byteAt_high (w : Word) :
    (push16 s w).byteAt (stackAddr s.sp) = storedByte s (stackAddr s.sp) (w.extractLsb' 8 8) := by
  have hkept := push8_memoryKeptExcept (push8 s (w.extractLsb' 8 8)) (w.extractLsb' 0 8)
  rw [push16_eq_push8_push8, hkept, push8_byteAt_stackAddr]
  rw [push8_sp, List.mem_singleton]
  exact stackAddr_ne_of_sub (by decide)

theorem push16_byteAt_low (w : Word) :
    (push16 s w).byteAt (stackAddr (s.sp - 1#8)) =
      storedByte (push8 s (w.extractLsb' 8 8)) (stackAddr (s.sp - 1#8)) (w.extractLsb' 0 8) := by
  have hlow := push8_byteAt_stackAddr (push8 s (w.extractLsb' 8 8)) (w.extractLsb' 0 8)
  rw [push8_sp] at hlow
  rw [push16_eq_push8_push8, hlow]

theorem push16_memoryKeptExcept (w : Word) :
    MemoryKeptExcept [stackAddr s.sp, stackAddr (s.sp - 1#8)] s (push16 s w) := by
  have hlow := push8_memoryKeptExcept (push8 s (hi8 w)) (lo8 w)
  rw [push8_sp] at hlow
  exact (push8_memoryKeptExcept s (hi8 w)).trans hlow

theorem push16_frame (w : Word) : Frame [.sp] [] s (push16 s w) :=
  ((push8_frame s (hi8 w)).trans (push8_frame _ (lo8 w))).mono (by decide) (by decide)

theorem pop16_frame : Frame [.sp] [] s (pop16 s).state :=
  ((pop8_frame s).trans (pop8_frame _)).mono (by decide) (by decide)

/-! ### JSR, RTS, trap entry and trap return (R174 to R177, 60_exceptions.md R184, R185) -/

theorem jsr_spec (w : Word) :
    let ret := s.pc - 1#16
    let t := ((push16 s ret).setPc w).addTicks 6
    t.pc = w ∧ t.sp = s.sp - 2#8 ∧
      t.byteAt (stackAddr s.sp) = storedByte s (stackAddr s.sp) (ret.extractLsb' 8 8) ∧
      t.byteAt (stackAddr (s.sp - 1#8)) =
        storedByte (push8 s (ret.extractLsb' 8 8)) (stackAddr (s.sp - 1#8)) (ret.extractLsb' 0 8) ∧
      MemoryKeptExcept [stackAddr s.sp, stackAddr (s.sp - 1#8)] s t ∧ Frame [.sp] [] s t ∧ t.tickcount = s.tickcount + 6 :=
  ⟨rfl, (push16_sp s _).trans (sub_sub s.sp 1#8 1#8), push16_byteAt_high s _, push16_byteAt_low s _,
    push16_memoryKeptExcept s _, ((push16_frame s _).trans (frame_setPc _ w)).trans (frame_addTicks _ 6),
    congrArg (· + 6) (push16_tickcount s _)⟩

theorem returnFromSubroutine_spec (base : Nat) :
    let t := returnFromSubroutine base s
    t.pc = (pop16 s).value + 1#16 ∧ t.sp = s.sp + 2#8 ∧ Frame [.sp] [] s t ∧ MemoryKept s t ∧
      t.tickcount = s.tickcount + base :=
  ⟨rfl, (pop16_sp s).trans (add_assoc s.sp 1#8 1#8), ((pop16_frame s).trans (frame_setPc _ _)).trans (frame_addTicks _ base),
    pop16_byteAt s, congrArg (· + base) (pop16_tickcount s)⟩

/-- The state in which trap entry has pushed its three bytes. -/
def pushTrapFrame (s : State) (ret : Word) : State := push8 (push16 s ret) (pushedFlags s.f)

/-- After its three pushes trap entry reads the vector, sets F.I, which the read does not see, and loads PC. -/
theorem trapEntry_eq_pushTrapFrame (ret vector : Word) :
    trapEntry s ret vector =
      ((readWord (pushTrapFrame s ret) vector).state.putFlag .i true).setPc
        (readWord (pushTrapFrame s ret) vector).value := by
  rw [trapEntry, ← pushTrapFrame, (outside_putFlag .i true).readWord]

/-- The flags go below the return address, whose two bytes are those of `push16`. -/
theorem pushTrapFrame_spec (ret : Word) :
    let t := pushTrapFrame s ret
    t.sp = s.sp - 3#8 ∧ t.byteAt (stackAddr s.sp) = (push16 s ret).byteAt (stackAddr s.sp) ∧
      t.byteAt (stackAddr (s.sp - 1#8)) = (push16 s ret).byteAt (stackAddr (s.sp - 1#8)) ∧
      t.byteAt (stackAddr (s.sp - 2#8)) = storedByte (push16 s ret) (stackAddr (s.sp - 2#8)) (pushedFlags s.f) ∧
      MemoryKeptExcept [stackAddr s.sp, stackAddr (s.sp - 1#8), stackAddr (s.sp - 2#8)] s t ∧ Frame [.sp] [] s t ∧
      t.tickcount = s.tickcount := by
  have hsp : (push16 s ret).sp = s.sp - 2#8 := (push16_sp s ret).trans (sub_sub s.sp 1#8 1#8)
  have hflags := push8_byteAt_stackAddr (push16 s ret) (pushedFlags s.f)
  have hkept := push8_memoryKeptExcept (push16 s ret) (pushedFlags s.f)
  rw [hsp] at hflags hkept
  have hone : s.sp - 2#8 = s.sp - 1#8 - 1#8 := (sub_sub s.sp 1#8 1#8).symm
  refine ⟨?sp, hkept _ ?high, hkept _ ?low, hflags, (push16_memoryKeptExcept s ret).trans hkept,
    ((push16_frame s ret).trans (push8_frame _ _)).mono (by decide) (by decide),
    (push8_tickcount _ _).trans (push16_tickcount s ret)⟩
  case sp => rw [pushTrapFrame, push8_sp, hsp]; exact sub_sub s.sp 2#8 1#8
  case high => exact List.mem_singleton.not.mpr (stackAddr_ne_of_sub (by decide))
  case low => rw [hone, List.mem_singleton]; exact stackAddr_ne_of_sub (by decide)

theorem readWord_frame (a : Word) : Frame [] [] s (readWord s a).state := by
  obtain ⟨n, hn, -⟩ := readWord_state s a
  rw [hn]
  exact frame_setHookCalls s n

theorem trapEntry_spec (ret vector : Word) :
    let p := pushTrapFrame s ret
    let t := trapEntry s ret vector
    t.sp = p.sp ∧ t.flag .i = true ∧ t.pc = (readWord p vector).value ∧ MemoryKept p t ∧ Frame [] [.i] p t ∧
      t.tickcount = p.tickcount := by
  intro p t
  have ht : t = ((readWord p vector).state.putFlag .i true).setPc (readWord p vector).value :=
    trapEntry_eq_pushTrapFrame s ret vector
  rw [ht]
  exact ⟨readWord_sp p vector, (flagTest_flagPut _ _ _ _).trans (if_pos rfl), rfl, readWord_byteAt p vector,
    ((readWord_frame p vector).trans (frame_putFlag _ .i true)).trans (frame_setPc _ _), readWord_tickcount p vector⟩

/-- Loading F is no part of the pop of PC. -/
theorem trapReturn_eq_setF_setPc :
    trapReturn s =
      ((pop16 (pop8 s).state).state.setF (pulledFlags (pop8 s).value)).setPc (pop16 (pop8 s).state).value := by
  rw [trapReturn, pullFlags, (outside_setF (pulledFlags (pop8 s).value)).pop16]

theorem trapReturn_spec :
    let t := trapReturn s
    t.f = pulledFlags (pop8 s).value ∧ t.pc = (pop16 (pop8 s).state).value ∧ t.sp = s.sp + 3#8 ∧ RegsKept [.sp] s t ∧
      HostStateKept s t ∧ MemoryKept s t ∧ t.tickcount = s.tickcount := by
  obtain ⟨hregs, -, hhost⟩ := ((pop8_frame s).trans (pop16_frame (pop8 s).state)).mono
    (rs' := [.sp]) (fs' := []) (by decide) (by decide)
  have hsp : (pop16 (pop8 s).state).state.sp = s.sp + 3#8 := by
    rw [pop16_sp, pop8_sp, add_assoc, add_assoc]; rfl
  rw [trapReturn_eq_setF_setPc]
  exact ⟨rfl, rfl, hsp, fun r hr => ((State.setPc_reg _ _ r).trans (State.setF_reg _ _ r)).trans (hregs r hr), hhost,
    fun a => (pop16_byteAt _ a).trans (pop8_byteAt s a), (pop16_tickcount _).trans (pop8_tickcount s)⟩

end

/-! ### The rows of the branches, each from its table entry and its shared operation -/

theorem branchForm_of_exec_eq {fl : Flag} {b : Bool} {op : Byte} {mk : Byte → Instr} {cond : State → Bool}
    (hdecode : decodeByte op = .two mk) (hexec : ∀ rel s, exec (mk rel) s = .next (branch (cond s) rel 2 s))
    (hcond : ∀ s, cond s = true ↔ s.flag fl = b) : BranchForm fl b op mk := by
  refine fun rel => ⟨decode_of_two hdecode, fun s => ⟨_, hexec rel s, ?_⟩⟩
  obtain ⟨htaken, hnotTaken, hkept⟩ := branch_spec s (cond s) rel 2
  exact ⟨fun h => htaken ((hcond s).mpr h), fun h => hnotTaken (Bool.eq_false_iff.mpr (mt (hcond s).mp h)), hkept⟩

end Sys2Proof.Machine

namespace Sys2Proof.Proofs
open Sys2Proof Sys2Proof.Machine

/-- Settles O53: every row is a `branch` on its flag or on the flag's negation. -/
theorem branchesTestOneFlag : Obligations.BranchesTestOneFlag :=
  ⟨branchForm_of_exec_eq rfl (fun _ _ => rfl) fun s => iff_of_eq (Bool.not_eq_true' (s.flag .n)),
    branchForm_of_exec_eq rfl (fun _ _ => rfl) fun _ => Iff.rfl,
    branchForm_of_exec_eq rfl (fun _ _ => rfl) fun s => iff_of_eq (Bool.not_eq_true' (s.flag .v)),
    branchForm_of_exec_eq rfl (fun _ _ => rfl) fun _ => Iff.rfl,
    branchForm_of_exec_eq rfl (fun _ _ => rfl) fun s => iff_of_eq (Bool.not_eq_true' (s.flag .c)),
    branchForm_of_exec_eq rfl (fun _ _ => rfl) fun _ => Iff.rfl,
    branchForm_of_exec_eq rfl (fun _ _ => rfl) fun s => iff_of_eq (Bool.not_eq_true' (s.flag .z)),
    branchForm_of_exec_eq rfl (fun _ _ => rfl) fun _ => Iff.rfl⟩

/-- Settles O54: the absolute form is one update; the indirect one is `jumpIndirect`, its target a pair of reads. -/
theorem jumpsSetPC : Obligations.JumpsSetPC := by
  refine fun w => ⟨decode_of_three rfl, decode_of_three rfl, fun s => ⟨rfl, _, rfl, ?_⟩⟩
  obtain ⟨hpc, hticks, hframe, hmem⟩ := jumpIndirect_spec s w
  obtain ⟨hiAddr, haddr, hvalue⟩ := resolveIndirect_value s w
  exact ⟨⟨hiAddr, haddr, hpc.trans hvalue⟩, hticks, hframe, hmem⟩

/-- Settles O55: JSR is a `push16` of PC_next - 1. -/
theorem jsrPushesReturnAddress : Obligations.JSRPushesReturnAddress :=
  fun w => ⟨decode_of_three rfl, fun s => ⟨_, rfl, jsr_spec s w⟩⟩

/-- Settles O56: RTS is a `pop16`, whose word is the number of its two bytes. -/
theorem rtsPopsReturnAddress : Obligations.RTSPopsReturnAddress := by
  refine ⟨decode_of_one rfl, fun s => ⟨_, rfl, ?_⟩⟩
  obtain ⟨hpc, hkept⟩ := returnFromSubroutine_spec s 6
  have htarget : ((pop16 s).value + 1#16).toNat = ((pop16 s).value.toNat + 1) % 65536 := BitVec.toNat_add _ _
  rw [pop16_value_toNat] at htarget
  exact ⟨(congrArg BitVec.toNat hpc).trans htarget, hkept⟩

/-- Settles O58: BRK is trap entry with PC_next + 1, through the IRQ vector. -/
theorem brkTakesTheTrap : Obligations.BRKTakesTheTrap := by
  refine ⟨decode_of_one rfl, fun s => ⟨_, rfl, ?_⟩⟩
  obtain ⟨hsp, hhigh, hlow, hflags, hkept, hframe, hticks⟩ := pushTrapFrame_spec s (s.pc + 1#16)
  obtain ⟨hsp', hi, hpc, hmem, hframe', hticks'⟩ := trapEntry_spec s (s.pc + 1#16) irqVector
  exact ⟨hsp'.trans hsp, hi, (hmem _).trans (hhigh.trans (push16_byteAt_high s _)),
    (hmem _).trans (hlow.trans (push16_byteAt_low s _)), (hmem _).trans hflags, hpc,
    fun a ha => (hmem a).trans (hkept a ha), (hframe.trans hframe').trans (frame_addTicks _ 7),
    congrArg (· + 7) (hticks'.trans hticks)⟩

/-- Settles O59: RTI is trap return. -/
theorem rtiRestoresFlagsAndPC : Obligations.RTIRestoresFlagsAndPC := by
  refine ⟨decode_of_one rfl, fun s => ⟨_, rfl, ?_⟩⟩
  obtain ⟨hf, hpc, hsp, hregs, hhost, hmem, hticks⟩ := trapReturn_spec s
  obtain ⟨hbit4, hbit5, hothers⟩ := bits_of_f_eq_pulledFlags hf
  exact ⟨hbit4, hbit5, hothers, hpc, hsp, fun r hr => (State.addTicks_reg _ 6 r).trans (hregs r hr), hhost, hmem,
    congrArg (· + 6) hticks⟩

end Sys2Proof.Proofs
end

section
/-!
PROOFS. The host's reset() (70_reset_and_hazards.md section 1): the word a read answers, and the state after reset() in one
equation.
-/
namespace Sys2Proof.Machine

variable (s : State)

/-- A word read depends on memory, the configuration and the count of hook calls alone. -/
theorem readWord_value_congr {s t : State} (a : Word) (hmem : s.mem = t.mem) (hcfg : s.cfg = t.cfg)
    (hcalls : s.hookCalls = t.hookCalls) : (readWord s a).value = (readWord t a).value := by
  obtain ⟨hlow, hcalls'⟩ := memRead_congr a hmem hcfg hcalls
  have hmem' : (memRead s a).state.mem = (memRead t a).state.mem := by rw [memRead_mem, memRead_mem, hmem]
  have hcfg' : (memRead s a).state.cfg = (memRead t a).state.cfg := by rw [memRead_cfg, memRead_cfg, hcfg]
  obtain ⟨hhigh, -⟩ := memRead_congr (a + 1#16) hmem' hcfg' hcalls'
  exact congrArg₂ mkWord hhigh hlow

/-- The state in which reset() reads its vector: F, SP, A, X and Y are loaded, the rest is as it was (R199). -/
def resetRegisters : State := { s with f := 0x24#8, sp := 0xFF#8, a := 0x00#8, x := 0x00#8, y := 0x00#8 }

theorem hostReset_eq_resetRegisters :
    hostReset s = ((readWord (resetRegisters s) resetVector).state.setPc
      (readWord (resetRegisters s) resetVector).value).setStatus .running := rfl

/-- Loading the registers first does not change the vector that is read (R199). -/
theorem hostReset_eq :
    ∃ n, hostReset s = (((resetRegisters s).setHookCalls n).setPc (readWord s resetVector).value).setStatus .running := by
  have hvector : (readWord (resetRegisters s) resetVector).value = (readWord s resetVector).value :=
    readWord_value_congr resetVector rfl rfl rfl
  obtain ⟨n, hread, -⟩ := readWord_state (resetRegisters s) resetVector
  exact ⟨n, by rw [hostReset_eq_resetRegisters, hvector, hread]⟩

end Sys2Proof.Machine

namespace Sys2Proof.Proofs
open Sys2Proof Sys2Proof.Machine

/-- Settles O22: every field is read off the equation of reset(); with nothing trapped the vector is two bytes of memory. -/
theorem resetOperation : Obligations.ResetOperation := by
  intro s
  obtain ⟨n, hreset⟩ := hostReset_eq s
  rw [hreset]
  exact ⟨rfl, rfl, rfl, rfl, rfl, rfl, rfl, rfl, rfl, rfl, rfl, rfl,
    fun huntrapped => congrArg ReadWord.value (readWord_of_trapped_nil huntrapped resetVector)⟩

end Sys2Proof.Proofs
end

section
/-!
PROOFS. Decoding and encoding (30_encoding.md): the instruction an entry of the opcode table and its operand bytes spell, and that
the table and the encoder are each other's inverse.
-/
namespace Sys2Proof.Machine

/-! ### What an entry of the table and its operand bytes spell (R67 to R70) -/

/-- The operand bytes that complete an entry of the opcode table, and the instruction they complete it to. -/
inductive Spells : Entry → List Byte → Instr → Prop where
  | one (i : Instr) : Spells (.one i) [] i
  | two (mk : Byte → Instr) (v : Byte) : Spells (.two mk) [v] (mk v)
  | three (mk : Word → Instr) (w : Word) : Spells (.three mk) [lo8 w, hi8 w] (mk w)

theorem Spells.operandCount_eq {e : Entry} {operand : List Byte} {i : Instr} (h : Spells e operand i) :
    e.operandCount = operand.length := by
  cases h <;> rfl

theorem operandCount_le_two (e : Entry) : e.operandCount ≤ 2 := by
  cases e <;> simp [Entry.operandCount]

/-- The decoder reads an opcode byte and the operand bytes that complete its entry, and leaves the rest. -/
theorem decode_eq_ok_iff {bs rest : List Byte} {i : Instr} :
    decode bs = .ok i rest ↔ ∃ op operand, bs = op :: operand ++ rest ∧ Spells (decodeByte op) operand i := by
  constructor
  · intro h
    cases bs with
    | nil => exact nomatch h
    | cons op tail =>
      cases he : decodeByte op with
      | illegal => simp [decode, he] at h
      | one j =>
        obtain ⟨rfl, rfl⟩ : j = i ∧ tail = rest := by simpa [decode, he] using h
        exact ⟨op, [], rfl, he ▸ .one j⟩
      | two mk =>
        match tail with
        | [] => simp [decode, he] at h
        | v :: tail =>
          obtain ⟨rfl, rfl⟩ : mk v = i ∧ tail = rest := by simpa [decode, he] using h
          exact ⟨op, [v], rfl, he ▸ .two mk v⟩
      | three mk =>
        match tail with
        | [] | [_] => simp [decode, he] at h
        | lo :: hi :: tail =>
          obtain ⟨rfl, rfl⟩ : mk (mkWord hi lo) = i ∧ tail = rest := by simpa [decode, he] using h
          have hspells := Spells.three mk (mkWord hi lo)
          rw [lo8_mkWord, hi8_mkWord] at hspells
          exact ⟨op, [lo, hi], rfl, he ▸ hspells⟩
  · rintro ⟨op, operand, rfl, h⟩
    generalize he : decodeByte op = e at h
    cases h with
    | one => simp [decode, he]
    | two mk v => simp [decode, he]
    | three mk w => simp [decode, he]

theorem decode_eq_illegalOpcode_iff (op : Byte) (rest : List Byte) :
    decode (op :: rest) = .illegalOpcode op ↔ decodeByte op = .illegal := by
  cases he : decodeByte op with
  | illegal => simp [decode, he]
  | one i => simp [decode, he]
  | two mk => cases rest <;> simp [decode, he]
  | three mk =>
    match rest with
    | [] | [_] | _ :: _ :: _ => simp [decode, he]

/-! ### The table and the encoder (R77, R78) -/

/-- Every instruction's bytes are an opcode and the operand bytes with which the opcode's entry spells the instruction. -/
theorem spells_encode (i : Instr) : ∃ op operand, encode i = op :: operand ∧ Spells (decodeByte op) operand i := by
  cases i <;> exact ⟨_, _, rfl, by constructor⟩

/-- What the table must hold at an opcode byte: an instruction that is encoded with that byte, or nothing at an unmapped byte. -/
def EntryEncodes (op : Byte) : Entry → Prop
  | .illegal => op ∈ illegalBytes
  | .one i => encode i = [op]
  | .two mk => ∀ v, encode (mk v) = format2 op v
  | .three mk => ∀ w, encode (mk w) = format3 op w

/-- The entries of a row hold what they must, from opcode byte `k` on. -/
def RowEncodes : Nat → List Entry → Prop
  | _, [] => True
  | k, e :: row => EntryEncodes (BitVec.ofNat 8 k) e ∧ RowEncodes (k + 1) row

theorem RowEncodes.getD {k n : Nat} {row : List Entry} (h : RowEncodes k row) (hn : n < row.length) :
    EntryEncodes (BitVec.ofNat 8 (k + n)) (row.getD n .illegal) := by
  induction row generalizing k n with
  | nil => exact absurd hn (Nat.not_lt_zero n)
  | cons e row ih =>
    cases n with
    | zero => exact h.1
    | succ n => simpa [Nat.add_assoc, Nat.add_comm 1] using ih h.2 (Nat.lt_of_succ_lt_succ hn)

/-- The map by its rows: an instruction at every byte it is encoded with, and nothing at the 105 unmapped bytes. -/
theorem rowEncodes_opcodeMap {n : Nat} (hn : n < opcodeMap.length) : RowEncodes (16 * n) (opcodeMap.getD n []) := by
  have hn : n < 16 := hn
  interval_cases n
  all_goals
    simp only [opcodeMap, opcodeRow0, opcodeRow1, opcodeRow2, opcodeRow3, opcodeRow4, opcodeRow5, opcodeRow6, opcodeRow7,
      opcodeRow8, opcodeRow9, opcodeRowA, opcodeRowB, opcodeRowC, opcodeRowD, opcodeRowE, opcodeRowF, List.cons_append,
      List.nil_append, List.getD_cons_zero, List.getD_cons_succ, RowEncodes, EntryEncodes, encode, format2, format3,
      implies_true, and_true, true_and]
    decide

theorem length_of_mem_opcodeMap {row : List Entry} (h : row ∈ opcodeMap) : row.length = 16 := by
  revert row; decide

/-- The entry at an opcode byte is one the encoder agrees with. -/
theorem entryEncodes_decodeByte (op : Byte) : EntryEncodes op (decodeByte op) := by
  have hrow : op.toNat / 16 < opcodeMap.length := Nat.div_lt_of_lt_mul op.isLt
  have hcolumn : op.toNat % 16 < (opcodeMap.getD (op.toNat / 16) []).length := by
    rw [List.getD_eq_getElem _ _ hrow, length_of_mem_opcodeMap (List.getElem_mem hrow)]
    exact Nat.mod_lt _ (by decide)
  have h := (rowEncodes_opcodeMap hrow).getD hcolumn
  rwa [Nat.div_add_mod, BitVec.ofNat_toNat, BitVec.setWidth_eq] at h

/-- The bytes that spell an instruction are its encoding. -/
theorem Spells.encode_eq {op : Byte} {operand : List Byte} {i : Instr} (h : Spells (decodeByte op) operand i) :
    encode i = op :: operand := by
  have hentry := entryEncodes_decodeByte op
  generalize decodeByte op = e at h hentry
  cases h with
  | one => exact hentry
  | two mk v => exact hentry v
  | three mk w => exact hentry w

theorem Spells.length_eq {op : Byte} {operand : List Byte} {i : Instr} (h : Spells (decodeByte op) operand i) :
    i.length = operand.length + 1 := by
  rw [Instr.length, h.encode_eq, List.length_cons]

/-- No instruction stands at the byte. -/
def isUnmapped : Entry → Bool
  | .illegal => true
  | .one _ | .two _ | .three _ => false

theorem isUnmapped_eq_true_iff (e : Entry) : isUnmapped e = true ↔ e = .illegal := by
  cases e <;> simp [isUnmapped]

theorem isUnmapped_of_mem_illegalBytes : ∀ op ∈ illegalBytes, isUnmapped (decodeByte op) = true := by decide

/-- The 105 listed bytes are the unmapped ones (R78). -/
theorem mem_illegalBytes_iff (op : Byte) : op ∈ illegalBytes ↔ decodeByte op = .illegal := by
  refine ⟨fun h => (isUnmapped_eq_true_iff _).mp (isUnmapped_of_mem_illegalBytes op h), fun h => ?_⟩
  have hentry := entryEncodes_decodeByte op
  rwa [h] at hentry

end Sys2Proof.Machine

namespace Sys2Proof.Proofs
open Sys2Proof Sys2Proof.Machine

/-- Settles O1: the encoder's bytes spell the instruction, and the decoder reads what bytes spell. -/
theorem decodeOfEncode : Obligations.DecodeOfEncode := by
  intro i rest
  obtain ⟨op, operand, hencode, hspells⟩ := spells_encode i
  exact decode_eq_ok_iff.mpr ⟨op, operand, by rw [hencode], hspells⟩

/-- Settles O2: the bytes the decoder reads spell the instruction, and bytes that spell it are its encoding. -/
theorem decodedBytesAreEncoded : Obligations.DecodedBytesAreEncoded := by
  intro bs i rest h
  obtain ⟨op, operand, hbs, hspells⟩ := decode_eq_ok_iff.mp h
  rw [hbs, hspells.encode_eq]

/-- Settles O3: each sample is the encoding of its instruction. -/
theorem sampleWordsDecode : Obligations.SampleWordsDecode :=
  ⟨decodeOfEncode (.ldaImm 0x80#8) [], decodeOfEncode (.staAbs 0x0200#16) [], decodeOfEncode (.adcImm 0x01#8) [],
    decodeOfEncode (.decAbs 0x1234#16) [], decodeOfEncode (.rorZp 0x20#8) [], decodeOfEncode (.bitZp 0x10#8) [],
    decodeOfEncode .php [], decodeOfEncode (.bne 0xF8#8) [], decodeOfEncode (.jmpInd 0x30FF#16) [],
    decodeOfEncode (.jsr 0x0610#16) [], decodeOfEncode .brk [], decodeOfEncode .rti []⟩

/-- Settles O4: the length is one more than the operand count of the opcode byte's entry. -/
theorem opcodeByteFixesLength : Obligations.OpcodeByteFixesLength := by
  have hlength {b : Byte} {bs r : List Byte} {i : Instr} (h : decode (b :: bs) = .ok i r) :
      i.length = (decodeByte b).operandCount + 1 := by
    obtain ⟨op, operand, hbs, hspells⟩ := decode_eq_ok_iff.mp h
    obtain ⟨rfl, -⟩ := List.cons.inj hbs
    rw [hspells.length_eq, hspells.operandCount_eq]
  intro b bs cs i j r q hi hj
  have hcount := operandCount_le_two (decodeByte b)
  rw [hlength hi, hlength hj]
  omega

end Sys2Proof.Proofs
end

section
/-!
PROOFS. The fetch and the step (40_execution.md section 1): the bytes a fetch reads, an unmapped opcode byte, and the bytes that
withFetchWord places.
-/
namespace Sys2Proof.Machine

section
variable {s : State} {i : Instr} {a : Word} {bs cs : List Byte}

/-! ### A fetch reads the instruction's bytes in address order (R84, R88 to R98) -/

theorem fetchByte_setPc (s : State) (pc : Word) :
    fetchByte (s.setPc pc) = { value := (memRead s pc).value, state := (memRead s pc).state.setPc (pc + 1#16) } := by
  have hread := (outside_setPc pc).memRead s pc
  simp only [fetchByte, State.setPc_pc, hread]; rfl

theorem fetch_of_illegal (h : decodeByte (memRead s s.pc).value = .illegal) :
    fetch s = .illegal (memRead s s.pc).value (memRead s s.pc).state := by
  simp [fetch, h]

theorem fetch_of_two {mk : Byte → Instr} (h : decodeByte (memRead s s.pc).value = .two mk) :
    let r := fetchByte ((memRead s s.pc).state.setPc (s.pc + 1#16))
    fetch s = .instr (mk r.value) r.state := by
  simp [fetch, h]

theorem fetch_of_three {mk : Word → Instr} (h : decodeByte (memRead s s.pc).value = .three mk) :
    let low := fetchByte ((memRead s s.pc).state.setPc (s.pc + 1#16))
    let high := fetchByte low.state
    fetch s = .instr (mk (mkWord high.value low.value)) high.state := by
  simp [fetch, h]

/-- Whatever an opcode and its operand bytes spell is fetched, with PC past those bytes, where PC designates them. -/
theorem fetch_of_spells {op : Byte} {operand : List Byte} (hspells : Spells (decodeByte op) operand i)
    (hbytes : (readBytes s s.pc (operand.length + 1)).1 = op :: operand) :
    fetch s = .instr i ((readBytes s s.pc (operand.length + 1)).2.setPc (s.pc + BitVec.ofNat 16 (operand.length + 1))) := by
  generalize he : decodeByte op = e at hspells
  cases hspells with
  | one =>
    obtain ⟨rfl, -⟩ := List.cons.inj hbytes
    exact fetch_of_one he
  | two mk v =>
    obtain ⟨rfl, hv⟩ := List.cons.inj hbytes
    obtain ⟨rfl, -⟩ := List.cons.inj hv
    simp [fetch_of_two he, fetchByte_setPc, readBytes, add_assoc]
  | three mk w =>
    obtain ⟨rfl, hoperand⟩ := List.cons.inj hbytes
    obtain ⟨hlow, htail⟩ := List.cons.inj hoperand
    obtain ⟨hhigh, -⟩ := List.cons.inj htail
    simp only [add_assoc, BitVec.reduceAdd] at hhigh
    simp [fetch_of_three he, fetchByte_setPc, readBytes, add_assoc, hlow, hhigh]

theorem step_of_decode_readBytes (hstatus : s.status = .running)
    (hdecode : decode (readBytes s s.pc i.length).1 = .ok i []) :
    step s = exec i ((readBytes s s.pc i.length).2.setPc (s.pc + BitVec.ofNat 16 i.length)) := by
  obtain ⟨op, operand, hbytes, hspells⟩ := decode_eq_ok_iff.mp hdecode
  rw [hspells.length_eq] at hbytes ⊢
  exact step_of_fetch_instr hstatus (fetch_of_spells hspells (by simpa using hbytes))

/-! ### An unmapped opcode byte (R86) -/

theorem memRead_state_eq (s : State) (a : Word) :
    (memRead s a).state = s.setHookCalls (if trapsRead s.cfg a then s.hookCalls + 1 else s.hookCalls) := by
  cases h : trapsRead s.cfg a with
  | false => rw [memRead_untrapped s h]; rfl
  | true => rw [memRead_trapped s h]; rfl

theorem step_of_illegal (hstatus : s.status = .running) (hop : decodeByte (memRead s s.pc).value = .illegal) :
    step s = .next (takeIllegalOpcode (memRead s s.pc).state s.pc (memRead s s.pc).value) := by
  simp [step, hstatus, fetch_of_illegal hop]

/-! ### Bytes placed where the core fetches (log entry 10) -/

/-- The bytes stand in memory at an address and the addresses after it, and no read of them is intercepted. -/
def Stands (s : State) : Word → List Byte → Prop
  | _, [] => True
  | a, v :: bs => trapsRead s.cfg a = false ∧ s.byteAt a = v ∧ Stands s (a + 1#16) bs

theorem Stands.readBytes_eq (h : Stands s a bs) : readBytes s a bs.length = (bs, s) := by
  induction bs generalizing a with
  | nil => rfl
  | cons v bs ih =>
    obtain ⟨htrap, hbyte, hrest⟩ := h
    simp only [List.length_cons, readBytes, memRead_untrapped s htrap, ih hrest, hbyte]

theorem Stands.of_append (h : Stands s a (bs ++ cs)) : Stands s a bs := by
  induction bs generalizing a with
  | nil => trivial
  | cons v bs ih =>
    obtain ⟨htrap, hbyte, hrest⟩ := h
    exact ⟨htrap, hbyte, ih hrest⟩

theorem trapsRead_untrap (c : Config) {as : List Word} (h : a ∈ as) : trapsRead (untrap c as) a = false := by
  simp [trapsRead, untrap, h]

/-- The bytes that stand at PC are fetched and run, whatever follows them. -/
theorem step_of_stands_encode (hstatus : s.status = .running) (h : Stands s s.pc (encode i ++ bs)) :
    step s = exec i (s.setPc (s.pc + BitVec.ofNat 16 i.length)) := by
  have hread : readBytes s s.pc i.length = (encode i, s) := h.of_append.readBytes_eq
  have hdecode : decode (encode i) = .ok i [] := by simpa using Proofs.decodeOfEncode i []
  have hstep := step_of_decode_readBytes (i := i) hstatus
  rw [hread] at hstep
  exact hstep hdecode

theorem placeBytes_pc (s : State) (a : Word) (bs : List Byte) : (placeBytes s a bs).pc = s.pc := by
  induction bs generalizing s a with
  | nil => rfl
  | cons v bs ih => exact ih (s.setByte a v) (a + 1#16)

/-- Three bytes lie at three addresses, also where PC wraps, so none overwrites another. -/
theorem placeBytes_three_byteAt (s : State) (a : Word) (v0 v1 v2 : Byte) :
    let t := placeBytes s a [v0, v1, v2]
    t.byteAt a = v0 ∧ t.byteAt (a + 1#16) = v1 ∧ t.byteAt (a + 1#16 + 1#16) = v2 := by
  have h01 : a ≠ a + 1#16 := self_ne_add_one a
  have h12 : a + 1#16 ≠ a + 1#16 + 1#16 := self_ne_add_one (a + 1#16)
  have h02 : a ≠ a + 1#16 + 1#16 := by bv_omega
  simp only [placeBytes]
  refine ⟨?_, ?_, State.setByte_byteAt_self _ _ v2⟩
  · rw [State.setByte_byteAt_ne _ v2 h02, State.setByte_byteAt_ne _ v1 h01, State.setByte_byteAt_self]
  · rw [State.setByte_byteAt_ne _ v2 h12, State.setByte_byteAt_self]

theorem withFetchWord_status (s : State) (nbits w : Nat) : (s.withFetchWord nbits w).status = .running := rfl

theorem withFetchWord_pc (s : State) (nbits w : Nat) : (s.withFetchWord nbits w).pc = s.pc :=
  placeBytes_pc s s.pc (tableBytes nbits w)

theorem stands_withFetchWord (s : State) (nbits w : Nat) :
    Stands (s.withFetchWord nbits w) s.pc (tableBytes nbits w) := by
  have hmem (a : Word) : (s.withFetchWord nbits w).byteAt a = (placeBytes s s.pc (tableBytes nbits w)).byteAt a := rfl
  have htrap {a : Word} (h : a ∈ [s.pc, s.pc + 1#16, s.pc + 2#16]) : trapsRead (s.withFetchWord nbits w).cfg a = false :=
    trapsRead_untrap _ h
  have hthird : s.pc + 1#16 + 1#16 = s.pc + 2#16 := add_assoc _ _ _
  obtain ⟨hbyte0, hbyte1, hbyte2⟩ := placeBytes_three_byteAt s s.pc (BitVec.ofNat 8 (w % 2 ^ nbits))
    (BitVec.ofNat 8 (w % 2 ^ nbits / 256)) (BitVec.ofNat 8 (w % 2 ^ nbits / 65536))
  exact ⟨htrap (by simp), (hmem _).trans hbyte0, htrap (by simp), (hmem _).trans hbyte1,
    htrap (by simp [hthird]), (hmem _).trans hbyte2, trivial⟩

end
end Sys2Proof.Machine

namespace Sys2Proof.Proofs
open Sys2Proof Sys2Proof.Machine

/-- Settles O6: the bytes read spell the instruction, and the fetch answers it with PC past them. -/
theorem stepRunsDecodedInstruction : Obligations.StepRunsDecodedInstruction :=
  fun _ _ => step_of_decode_readBytes

/-- Settles O5: the listed bytes are the unmapped ones, and at one of them the step changes the status and the count of hook calls. -/
theorem illegalByteFaults : Obligations.IllegalByteFaults := by
  refine ⟨fun b rest => (mem_illegalBytes_iff b).trans (decode_eq_illegalOpcode_iff b rest).symm, rfl, fun s hrunning hop => ?_⟩
  rw [step_of_illegal hrunning ((mem_illegalBytes_iff _).mp hop), memRead_state_eq]; rfl

/-- Settles O7: the placed bytes begin with the instruction's encoding, so the fetch reads and decodes it. -/
theorem placedWordRuns : Obligations.PlacedWordRuns := by
  intro s nbits w i h
  obtain ⟨rest, hdecode⟩ : ∃ rest, decode (tableBytes nbits w) = .ok i rest := by
    unfold decodeTableWord at h
    split at h
    case h_1 rest hdecode => exact ⟨rest, Option.some.inj h ▸ hdecode⟩
    all_goals exact nomatch h
  have hstands := stands_withFetchWord s nbits w
  rw [decodedBytesAreEncoded _ _ _ hdecode, ← withFetchWord_pc s nbits w] at hstands
  rw [step_of_stands_encode (withFetchWord_status s nbits w) hstands, withFetchWord_pc]

/-- Settles O8: the step looks at the status first. -/
theorem stepNeedsRunningStatus : Obligations.StepNeedsRunningStatus := by
  intro s
  exact ⟨fun h => by simp only [step, h], fun pc byte h => by simp only [step, h]⟩

/-- Settles O9: a step takes the exception or executes an instruction, and every instruction completes. -/
theorem runningStepAnswersNext : Obligations.RunningStepAnswersNext := by
  intro s hrunning
  obtain ⟨byte, t, -, hstep⟩ | ⟨i, t, -, hstep⟩ := step_running s hrunning
  · exact ⟨_, hstep⟩
  · obtain ⟨u, hexec, -⟩ := exec_shape i t
    exact ⟨u, hstep.trans hexec⟩

end Sys2Proof.Proofs
end

section
/-!
PROOFS. What every instruction keeps and what it costs: the canonical memory, the fixed bits of F, the host's part of the state, and
the bounds of tickcount. One case for each shared operation of `Shape`.
-/
namespace Sys2Proof.Machine

/-! ### The fixed bits of F (10_state.md R29, R30) -/

/-- F.B is 0 and bit 5 is 1. -/
def FixedBits (f : Byte) : Prop := f.getLsbD 4 = false ∧ f.getLsbD 5 = true

section
variable {f : Byte}

theorem FixedBits.flagPut (h : FixedBits f) {fl : Flag} (b : Bool) (hb : fl ≠ .b) : FixedBits (flagPut f fl b) := by
  obtain ⟨h4, h5⟩ := h
  have hbit4 : 4 ≠ fl.bit := fun e => hb (Flag.bit_injective (e.symm : fl.bit = Flag.b.bit))
  exact ⟨by rw [getLsbD_flagPut, if_neg hbit4, h4], by rw [getLsbD_flagPut, if_neg fl.bit_ne_five.symm, h5]⟩

theorem FixedBits.setNZ (h : FixedBits f) (v : Byte) : FixedBits (setNZ f v) :=
  (h.flagPut _ (by decide)).flagPut _ (by decide)

theorem FixedBits.compareFlags (h : FixedBits f) (reg v : Byte) : FixedBits (compareFlags f reg v) :=
  (h.flagPut _ (by decide)).setNZ _

theorem FixedBits.bitTestFlags (h : FixedBits f) (a m : Byte) : FixedBits (bitTestFlags f a m) :=
  ((h.flagPut _ (by decide)).flagPut _ (by decide)).flagPut _ (by decide)

theorem fixedBits_pulledFlags (v : Byte) : FixedBits (pulledFlags v) :=
  ⟨getLsbD_pulledFlags v 4, getLsbD_pulledFlags v 5⟩

end

theorem invariant_iff (s : State) : Invariant s ↔ s.mem.wf = true ∧ FixedBits s.f :=
  and_congr_right fun _ => and_comm

/-! ### What an operation keeps -/

/-- The host's part of the state is as it was, and the invariant, if it held, still holds. -/
structure Keeps (s t : State) : Prop where
  host : HostStateKept s t
  wf : s.mem.wf = true → t.mem.wf = true
  fixedBits : FixedBits s.f → FixedBits t.f

section
variable {s t : State} (h : Keeps s t)

theorem Keeps.refl (s : State) : Keeps s s := ⟨⟨rfl, rfl, rfl, rfl⟩, id, id⟩

include h

/-- An update of registers, PC, tickcount and the count of hook calls, and neither of memory nor of F. -/
theorem Keeps.of_mem_f_eq {u : State} (hhost : HostStateKept t u) (hmem : u.mem = t.mem) (hf : u.f = t.f) : Keeps s u := by
  obtain ⟨hnmi, hirq, hstatus, hcfg⟩ := hhost
  obtain ⟨⟨hnmi', hirq', hstatus', hcfg'⟩, hwf, hbits⟩ := h
  exact ⟨⟨hnmi.trans hnmi', hirq.trans hirq', hstatus.trans hstatus', hcfg.trans hcfg'⟩, hmem ▸ hwf, hf ▸ hbits⟩

theorem Keeps.setHookCalls {n : Nat} : Keeps s (t.setHookCalls n) := h.of_mem_f_eq ⟨rfl, rfl, rfl, rfl⟩ rfl rfl
theorem Keeps.setPc {w : Word} : Keeps s (t.setPc w) := h.of_mem_f_eq ⟨rfl, rfl, rfl, rfl⟩ rfl rfl
theorem Keeps.addTicks {n : Nat} : Keeps s (t.addTicks n) := h.of_mem_f_eq ⟨rfl, rfl, rfl, rfl⟩ rfl rfl
theorem Keeps.setA {v : Byte} : Keeps s (t.setA v) := h.of_mem_f_eq ⟨rfl, rfl, rfl, rfl⟩ rfl rfl
theorem Keeps.setSp {v : Byte} : Keeps s (t.setSp v) := h.of_mem_f_eq ⟨rfl, rfl, rfl, rfl⟩ rfl rfl

theorem Keeps.setReg {r : Reg} {v : Byte} : Keeps s (t.setReg r v) :=
  h.of_mem_f_eq (by simp [HostStateKept]) (State.setReg_mem t r v) (State.setReg_f t r v)

theorem Keeps.setByte {a : Word} {v : Byte} : Keeps s (t.setByte a v) :=
  ⟨h.host, fun hwf => State.setByte_wf (h.wf hwf) a v, h.fixedBits⟩

theorem Keeps.setF {g : Byte} (hg : FixedBits s.f → FixedBits g) : Keeps s (t.setF g) := ⟨h.host, h.wf, hg⟩

end

/-- Every instruction keeps the host's part of the state and the invariant. -/
theorem Shape.keeps {s t : State} (h : Shape s t) : Keeps s t := by
  have hs := Keeps.refl s
  cases h with
  | load r src base =>
    obtain ⟨n, heq⟩ := loadReg_eq s r src base
    exact heq ▸ (hs.setHookCalls.setReg.setF (·.setNZ _)).addTicks
  | store r m base =>
    obtain ⟨v, n, heq, -⟩ := storeReg_eq s r m base
    exact heq ▸ hs.setByte.setHookCalls.addTicks
  | transfer dst src =>
    rw [transfer_eq_writeReported]
    exact (hs.setHookCalls.setReg.setF (·.setNZ _)).addTicks
  | txs => exact hs.setSp.addTicks
  | sum op bin dec src base =>
    obtain ⟨n, r, overflow, heq, -, -⟩ := addSub_eq_putSum s op bin dec src base
    exact heq ▸ (hs.setHookCalls.setA.setF
      fun hf => ((hf.flagPut overflow (by decide)).flagPut r.carry (by decide)).setNZ _).addTicks
  | compare r src base =>
    obtain ⟨n, heq⟩ := compareReg_eq s r src base
    exact heq ▸ (hs.setHookCalls.setF (·.compareFlags _ _)).addTicks
  | memStep op m base =>
    obtain ⟨v, n, heq, -⟩ := stepAt_eq s op m base
    exact heq ▸ (hs.setByte.setHookCalls.setF (·.setNZ _)).addTicks
  | regStep op r =>
    rw [stepReg_eq_writeReported]
    exact (hs.setHookCalls.setReg.setF (·.setNZ _)).addTicks
  | logic op src base =>
    obtain ⟨n, heq⟩ := logicA_eq s op src base
    exact heq ▸ (hs.setHookCalls.setA.setF (·.setNZ _)).addTicks
  | bit m base =>
    obtain ⟨n, heq⟩ := bitTest_eq s m base
    exact heq ▸ (hs.setHookCalls.setF (·.bitTestFlags _ _)).addTicks
  | accShift op =>
    rw [shiftAt_acc]
    exact (hs.setA.setF fun hf => (hf.flagPut _ (by decide)).setNZ _).addTicks
  | memShift op m base =>
    obtain ⟨v, n, heq, -⟩ := shiftAt_mem s op m base
    exact heq ▸ (hs.setByte.setHookCalls.setF fun hf => (hf.flagPut _ (by decide)).setNZ _).addTicks
  | push v =>
    obtain ⟨v', n, heq, -, -⟩ := push8_eq s v
    exact heq ▸ hs.setByte.setHookCalls.setSp.addTicks
  | pullA =>
    obtain ⟨n, heq, -⟩ := pop8_state s
    rw [pullA_eq_writeReported, heq]
    exact (hs.setSp.setHookCalls.setHookCalls.setReg.setF (·.setNZ _)).addTicks
  | plp =>
    obtain ⟨v, n, heq, -⟩ := pullFlags_eq s
    exact heq ▸ (hs.setSp.setHookCalls.setF fun _ => fixedBits_pulledFlags v).addTicks
  | flag fl b hfl => exact (hs.setF (·.flagPut b hfl)).addTicks
  | nop => exact hs.addTicks
  | branch cond rel =>
    cases cond
    · exact hs.addTicks
    · exact hs.setPc.addTicks
  | jump w => exact hs.setPc.addTicks
  | jumpIndirect w =>
    obtain ⟨n, heq, -⟩ := resolveIndirect_state s w
    rw [Machine.jumpIndirect, heq]
    exact hs.setHookCalls.setPc.addTicks
  | jsr w =>
    obtain ⟨vh, vl, n, heq, -⟩ := push16_eq s (s.pc - 1#16)
    exact heq ▸ hs.setByte.setByte.setHookCalls.setSp.setPc.addTicks
  | rts =>
    obtain ⟨n, heq, -⟩ := pop16_state s
    rw [returnFromSubroutine, heq]
    exact hs.setSp.setHookCalls.setPc.addTicks
  | brk =>
    obtain ⟨v1, v2, v3, n, pc, heq, -⟩ := trapEntry_eq s (s.pc + 1#16) irqVector
    exact heq ▸ (hs.setByte.setByte.setByte.setHookCalls.setSp.setF (·.flagPut true (by decide))).setPc.addTicks
  | rti =>
    obtain ⟨v, n, pc, heq, -⟩ := trapReturn_eq s
    exact heq ▸ (hs.setSp.setHookCalls.setF fun _ => fixedBits_pulledFlags v).setPc.addTicks

/-! ### What an instruction costs (40_execution.md R99 to R102) -/

/-- The bounds of an instruction's cost: 8 cycles only where stores pay the page penalty (R101). -/
def CostBounds (c : Config) (n : Nat) : Prop := 2 ≤ n ∧ n ≤ 8 ∧ (c.penaltyScope = .readsOnly → n ≤ 7)

theorem costBounds_of_le {c : Config} {n : Nat} (hlow : 2 ≤ n) (hhigh : n ≤ 7) : CostBounds c n :=
  ⟨hlow, by omega, fun _ => hhigh⟩

theorem costBounds_reads {c : Config} {base : Nat} (crossed : Bool) (h : 2 ≤ base ∧ base ≤ 6) :
    CostBounds c (base + pagePenalty c .reads crossed) := by
  have hpenalty := pagePenalty_le_one c .reads crossed
  exact costBounds_of_le (by omega) (by omega)

theorem costBounds_stores {c : Config} {base : Nat} (crossed : Bool) (h : 3 ≤ base ∧ base ≤ 7) :
    CostBounds c (base + pagePenalty c .stores crossed) := by
  have hpenalty := pagePenalty_le_one c .stores crossed
  refine ⟨by omega, by omega, fun hscope => ?_⟩
  rw [pagePenalty_readsOnly_stores hscope]
  omega

/-- Every meaning adds its cost last. -/
theorem cost_of_addTicks {s t : State} {n : Nat} (ht : t.tickcount = s.tickcount) (hn : CostBounds s.cfg n) :
    ∃ k, (t.addTicks n).tickcount = s.tickcount + k ∧ CostBounds s.cfg k :=
  ⟨n, congrArg (· + n) ht, hn⟩

theorem Shape.cost {s t : State} (h : Shape s t) : ∃ n, t.tickcount = s.tickcount + n ∧ CostBounds s.cfg n := by
  have hfixed {n : Nat} (hlow : 2 ≤ n := by decide) (hhigh : n ≤ 7 := by decide) : CostBounds s.cfg n :=
    costBounds_of_le hlow hhigh
  cases h with
  | load r src base hbase => exact cost_of_addTicks (by simp) (costBounds_reads _ hbase)
  | store r m base hbase => exact cost_of_addTicks (by simp) (costBounds_stores _ (by omega))
  | transfer dst src => exact cost_of_addTicks (by simp) hfixed
  | txs => exact cost_of_addTicks rfl hfixed
  | sum op bin dec src base hbase =>
    refine cost_of_addTicks ?_ (costBounds_reads _ hbase)
    split <;> simp [putSum_eq]
  | compare r src base hbase => exact cost_of_addTicks (by simp) (costBounds_reads _ hbase)
  | memStep op m base hbase => exact cost_of_addTicks (by simp) (costBounds_stores _ (by omega))
  | regStep op r => exact cost_of_addTicks (by simp) hfixed
  | logic op src base hbase => exact cost_of_addTicks (by simp) (costBounds_reads _ hbase)
  | bit m base hbase => exact cost_of_addTicks (by simp) (costBounds_reads _ (by omega))
  | accShift op => exact cost_of_addTicks rfl hfixed
  | memShift op m base hbase => exact cost_of_addTicks (by simp) (costBounds_stores _ (by omega))
  | push v => exact cost_of_addTicks (push8_tickcount s v) hfixed
  | pullA => exact cost_of_addTicks (pop8_tickcount s) hfixed
  | plp => exact cost_of_addTicks (pop8_tickcount s) hfixed
  | flag fl b => exact cost_of_addTicks rfl hfixed
  | nop => exact cost_of_addTicks rfl hfixed
  | branch cond rel =>
    cases cond
    · exact cost_of_addTicks rfl hfixed
    · refine cost_of_addTicks rfl ?_
      split
      · exact hfixed
      · exact hfixed
  | jump w => exact cost_of_addTicks rfl hfixed
  | jumpIndirect w =>
    refine cost_of_addTicks (resolveIndirect_tickcount s w) ?_
    unfold jmpIndBase
    split
    · exact hfixed
    · exact hfixed
  | jsr w => exact cost_of_addTicks (push16_tickcount s _) hfixed
  | rts => exact cost_of_addTicks (pop16_tickcount s) hfixed
  | brk =>
    obtain ⟨-, -, -, -, -, hticks⟩ := trapEntry_spec s (s.pc + 1#16) irqVector
    obtain ⟨-, -, -, -, -, -, hticks'⟩ := pushTrapFrame_spec s (s.pc + 1#16)
    exact cost_of_addTicks (hticks.trans hticks') hfixed
  | rti =>
    obtain ⟨-, -, -, -, -, -, hticks⟩ := trapReturn_spec s
    exact cost_of_addTicks hticks hfixed

/-! ### A step of a running core -/

/-- A step takes the exception, which keeps all but the status and the count of hook calls, or executes an instruction from a state
that differs in PC and that count alone. -/
theorem step_next_cases {s t : State} (hrunning : s.status = .running) (h : step s = .next t) :
    (∃ n pc byte, t = (s.setHookCalls n).setStatus (.faulted pc byte)) ∨
      (∃ pc n, Shape ((s.setPc pc).setHookCalls n) t) := by
  obtain ⟨byte, t', hfetch, hstep⟩ | ⟨i, t', hfetch, hstep⟩ := step_running s hrunning
  · obtain ⟨-, rfl⟩ := fetch_illegal s hfetch
    obtain ⟨n, hn, -⟩ := memRead_state s s.pc
    refine .inl ⟨n, s.pc, byte, ?_⟩
    rw [← hn]
    exact (Host.Outcome.next.inj (hstep.symm.trans h)).symm
  · obtain ⟨pc, n, rfl, -⟩ := fetch_instr s hfetch
    obtain ⟨u, hexec, hshape⟩ := exec_shape i ((s.setPc pc).setHookCalls n)
    obtain rfl : u = t := Host.Outcome.next.inj ((hstep.trans hexec).symm.trans h)
    exact .inr ⟨pc, n, hshape⟩

/-- Only a running core has a next state. -/
theorem running_of_step_next {s t : State} (h : step s = .next t) : s.status = .running := by
  cases hstatus : s.status with
  | unreset => simp [step, hstatus] at h
  | faulted pc byte => simp [step, hstatus] at h
  | running => rfl

/-- What a step to a next state keeps, and how it ends: running, at a cost within the bounds, or faulted, at no cost. -/
structure StepEffect (s t : State) : Prop where
  wf : s.mem.wf = true → t.mem.wf = true
  fixedBits : FixedBits s.f → FixedBits t.f
  cfg : t.cfg = s.cfg
  waitingForNmi : t.waitingForNmi = s.waitingForNmi
  waitingForIrq : t.waitingForIrq = s.waitingForIrq
  ending : (t.status = .running ∧ ∃ n, t.tickcount = s.tickcount + n ∧ CostBounds s.cfg n) ∨
    ((∃ pc byte, t.status = .faulted pc byte) ∧ t.tickcount = s.tickcount)

theorem step_effect {s t : State} (h : step s = .next t) : StepEffect s t := by
  have hrunning := running_of_step_next h
  obtain ⟨n, pc, byte, rfl⟩ | ⟨pc, n, hshape⟩ := step_next_cases hrunning h
  · exact ⟨id, id, rfl, rfl, rfl, .inr ⟨⟨pc, byte, rfl⟩, rfl⟩⟩
  · obtain ⟨⟨hnmi, hirq, hstatus, hcfg⟩, hwf, hbits⟩ := hshape.keeps
    exact ⟨hwf, hbits, hcfg, hnmi, hirq, .inl ⟨hstatus.trans hrunning, hshape.cost⟩⟩

end Sys2Proof.Machine

namespace Sys2Proof.Proofs
open Sys2Proof Sys2Proof.Machine

/-- Settles O10: taking the exception touches neither memory nor F, and every instruction keeps both in their form. -/
theorem stepKeepsInvariant : Obligations.StepKeepsInvariant := by
  intro s t hs hstep
  obtain ⟨hmem, hf⟩ := (invariant_iff s).mp hs
  have heffect := step_effect hstep
  exact (invariant_iff t).mpr ⟨heffect.wf hmem, heffect.fixedBits hf⟩

/-- Settles O12: the bounds are those of an instruction's cost, and taking the exception costs nothing. -/
theorem stepCostBounds : Obligations.StepCostBounds := by
  intro s t _ hstep
  obtain ⟨hrunning, n, hticks, hlow, hhigh, hreadsOnly⟩ | ⟨⟨pc, byte, hfaulted⟩, hticks⟩ := (step_effect hstep).ending
  · refine ⟨by omega, fun _ => ⟨by omega, by omega, fun hscope => ?_⟩, fun hstopped => absurd hrunning hstopped⟩
    have := hreadsOnly hscope
    omega
  · exact ⟨hticks.ge, fun hrunning => (nomatch hfaulted.symm.trans hrunning), fun _ => hticks⟩

/-- Settles O14: neither taking the exception nor an instruction writes the configuration. -/
theorem stepKeepsConfiguration : Obligations.StepKeepsConfiguration :=
  fun _ _ hstep => (step_effect hstep).cfg

/-- Settles O11: reset() loads F with 0x24 and leaves memory. -/
theorem resetMeetsInvariant : Obligations.ResetMeetsInvariant := by
  refine ⟨⟨rfl, rfl, rfl⟩, fun s hwf => ?_⟩
  obtain ⟨n, hreset⟩ := hostReset_eq s
  have hbits : FixedBits 0x24#8 := ⟨rfl, rfl⟩
  rw [hreset]
  exact (invariant_iff _).mpr ⟨hwf, hbits⟩

end Sys2Proof.Proofs
end

section
/-!
PROOFS. What the host can do between steps (70_reset_and_hazards.md R204) and the run loop (40_execution.md section 4): reset() of a
new core, resume(), the runs that execute nothing, and the induction over the instructions of a run with a budget of 0 or more.
-/
namespace Sys2Proof.Machine

/-! ### The run loop (R105) -/

section
variable {budget : Int} {start k : Nat} {s t : State}

theorem budgetSpent_iff {now : Nat} : budgetSpent budget start now = true ↔ 0 ≤ budget ∧ budget ≤ (now : Int) - start := by
  simp [budgetSpent]

/-- At the start of a run only the budget 0 is used up. -/
theorem budgetSpent_self_iff : budgetSpent budget start start = true ↔ budget = 0 := by
  rw [budgetSpent_iff]; omega

theorem runLoop_of_budgetSpent (h : budgetSpent budget start s.tickcount = true) : runLoop budget start k s = .ok s := by
  cases k <;> simp [runLoop, h]

theorem runLoop_of_faulted {pc : Word} {byte : Byte} (hspent : ¬ budgetSpent budget start s.tickcount = true)
    (hstatus : s.status = .faulted pc byte) : runLoop budget start k s = .err pc byte s := by
  cases k <;> simp [runLoop, hspent, hstatus]

theorem runLoop_of_step_next (hspent : ¬ budgetSpent budget start s.tickcount = true) (hstep : step s = .next t) :
    runLoop budget start (k + 1) s = runLoop budget start k t := by
  simp [runLoop, hspent, running_of_step_next hstep, hstep]

theorem runForTicks_of_ne_unreset (h : s.status ≠ .unreset) : runForTicks budget k s = runLoop budget s.tickcount k s := by
  cases hstatus : s.status with
  | unreset => exact absurd hstatus h
  | running => simp [runForTicks, hstatus]
  | faulted pc byte => simp [runForTicks, hstatus]

theorem runForTicks_of_unreset (h : s.status = .unreset) : runForTicks budget k s = .refused .beforeReset := by
  simp [runForTicks, h]

/-- A run returns Ok when its budget is used up, at once or after a step. -/
theorem runLoop_ok_cases (h : runLoop budget start k s = .ok t) :
    (budgetSpent budget start s.tickcount = true ∧ t = s) ∨
      (¬ budgetSpent budget start s.tickcount = true ∧
        ∃ k' u, k = k' + 1 ∧ step s = .next u ∧ runLoop budget start k' u = .ok t) := by
  by_cases hspent : budgetSpent budget start s.tickcount = true
  · rw [runLoop_of_budgetSpent hspent] at h
    exact .inl ⟨hspent, (RunEnd.ok.inj h).symm⟩
  · refine .inr ⟨hspent, ?_⟩
    cases hstatus : s.status with
    | unreset => cases k <;> simp [runLoop, hspent, hstatus] at h
    | faulted pc byte => rw [runLoop_of_faulted hspent hstatus] at h; exact nomatch h
    | running =>
      obtain ⟨u, hstep⟩ := Proofs.runningStepAnswersNext s hstatus
      cases k with
      | zero => simp [runLoop, hspent, hstatus] at h
      | succ k => exact ⟨k, u, rfl, hstep, (runLoop_of_step_next hspent hstep).symm.trans h⟩

theorem step_tickcount_le (h : step s = .next t) : t.tickcount ≤ s.tickcount + 8 := by
  obtain ⟨-, n, hticks, -, hhigh, -⟩ | ⟨-, hticks⟩ := (step_effect h).ending
  · omega
  · omega

/-- A run overshoots its budget by at most one instruction's cost less one, because the budget is not used up before its last
instruction. -/
theorem runLoop_ok_bounds (hbudget : 0 ≤ budget) (hs : (s.tickcount : Int) - start ≤ budget + 7)
    (hrun : runLoop budget start k s = .ok t) :
    budget ≤ (t.tickcount : Int) - start ∧ (t.tickcount : Int) - start ≤ budget + 7 := by
  induction k generalizing s with
  | zero =>
    obtain ⟨hspent, rfl⟩ | ⟨-, k', -, hk, -⟩ := runLoop_ok_cases hrun
    · exact ⟨(budgetSpent_iff.mp hspent).2, hs⟩
    · exact nomatch hk
  | succ k ih =>
    obtain ⟨hspent, rfl⟩ | ⟨hspent, k', u, hk, hstep, hrun'⟩ := runLoop_ok_cases hrun
    · exact ⟨(budgetSpent_iff.mp hspent).2, hs⟩
    · obtain rfl : k = k' := Nat.succ.inj hk
      have hticks := step_tickcount_le hstep
      have hbelow : ¬ budget ≤ (s.tickcount : Int) - start := fun h => hspent (budgetSpent_iff.mpr ⟨hbudget, h⟩)
      exact ih (by omega) hrun'

/-- A run with as many instructions left to it as ticks ends by itself: each instruction but a faulting one costs at least one tick,
and a faulted core ends the run. -/
theorem runLoop_ends (hstatus : s.status ≠ .unreset) (hbudget : 0 ≤ budget) (hk : budget ≤ (s.tickcount : Int) - start + k) :
    (∃ t, runLoop budget start k s = .ok t) ∨ (∃ pc byte t, runLoop budget start k s = .err pc byte t) := by
  induction k generalizing s with
  | zero => exact .inl ⟨s, runLoop_of_budgetSpent (budgetSpent_iff.mpr ⟨hbudget, by simpa using hk⟩)⟩
  | succ k ih =>
    by_cases hspent : budgetSpent budget start s.tickcount = true
    · exact .inl ⟨s, runLoop_of_budgetSpent hspent⟩
    cases hs : s.status with
    | unreset => exact absurd hs hstatus
    | faulted pc byte => exact .inr ⟨pc, byte, s, runLoop_of_faulted hspent hs⟩
    | running =>
      obtain ⟨u, hstep⟩ := Proofs.runningStepAnswersNext s hs
      rw [runLoop_of_step_next hspent hstep]
      obtain ⟨hrunning, n, hticks, hlow, -⟩ | ⟨⟨pc, byte, hfaulted⟩, hticks⟩ := (step_effect hstep).ending
      · exact ih (by simp [hrunning]) (by omega)
      · exact .inr ⟨pc, byte, u, runLoop_of_faulted (hticks ▸ hspent) hfaulted⟩

end

end Sys2Proof.Machine

namespace Sys2Proof.Proofs
open Sys2Proof Sys2Proof.Machine

/-- Settles O23: reset() loads every register the construction left free, and the word it reads is two zeros. -/
theorem resetStateIsResetOfNewCore : Obligations.ResetStateIsResetOfNewCore := by
  intro a x y sp f pc n
  obtain ⟨m, hreset⟩ := hostReset_eq (construct [] Config.standard a x y sp f pc)
  have hempty (b : Word) : (construct [] Config.standard a x y sp f pc).byteAt b = 0x00#8 := rfl
  have hvector : (readWord (construct [] Config.standard a x y sp f pc) resetVector).value = 0x0000#16 := by
    rw [readWord_of_trapped_nil rfl, hempty, hempty]; rfl
  rw [hreset, hvector]; rfl

/-- Settles O24: resume() writes the status of a faulted core and nothing else. -/
theorem resumeRestartsFaultedCore : Obligations.ResumeRestartsFaultedCore := by
  intro s
  refine ⟨fun pc byte h => ?faulted, fun h => ?running, fun h => ?unreset⟩
  case faulted => rw [resume, h]; rfl
  case running => rw [resume, h]
  case unreset => rw [resume, h]

/-- Settles O25: before the first instruction only the budget 0 is used up, and a faulted core has no first instruction. -/
theorem faultedRunReturnsError : Obligations.FaultedRunReturnsError := by
  intro s pc byte budget k hfaulted
  rw [runForTicks_of_ne_unreset (by simp [hfaulted])]
  split
  case isTrue hzero => exact runLoop_of_budgetSpent (budgetSpent_self_iff.mpr hzero)
  case isFalse hzero => exact runLoop_of_faulted (mt budgetSpent_self_iff.mp hzero) hfaulted

/-- Settles O26: the run begins within the bounds, and the budget 0 is used up before its first instruction. -/
theorem runStopsAtBudget : Obligations.RunStopsAtBudget := by
  intro s t budget k hbudget hrun
  have hstatus : s.status ≠ .unreset := fun h => nomatch (runForTicks_of_unreset h).symm.trans hrun
  rw [runForTicks_of_ne_unreset hstatus] at hrun
  obtain ⟨hlow, hhigh⟩ := runLoop_ok_bounds hbudget (by omega) hrun
  refine ⟨hlow, hhigh, fun hzero => ?_⟩
  rw [runLoop_of_budgetSpent (budgetSpent_self_iff.mpr hzero)] at hrun
  exact (RunEnd.ok.inj hrun).symm

/-- Settles O27: as many instructions as ticks are enough. -/
theorem budgetedRunEnds : Obligations.BudgetedRunEnds := by
  intro s budget k hstatus hk
  rw [runForTicks_of_ne_unreset hstatus]
  exact runLoop_ends hstatus (by omega) (by omega)

/-- Settles O28: the budget 1 is not used up before the first step, and is used up after it unless the step faulted. -/
theorem budgetOfOneSingleSteps : Obligations.BudgetOfOneSingleSteps := by
  intro s t k
  have hspent : ¬ budgetSpent 1 s.tickcount s.tickcount = true := mt budgetSpent_self_iff.mp (by decide)
  have hrun (hrunning : s.status = .running) (hstep : step s = .next t) :
      runForTicks 1 (k + 1) s = runLoop 1 s.tickcount k t := by
    rw [runForTicks_of_ne_unreset (by simp [hrunning]), runLoop_of_step_next hspent hstep]
  refine ⟨fun hrunning hstep ht => ?ok, fun pc byte hrunning hstep ht => ?err, runForTicks_of_unreset⟩
  case ok =>
    obtain ⟨-, hcost, -⟩ := stepCostBounds s t hrunning hstep
    obtain ⟨hlow, -⟩ := hcost ht
    rw [hrun hrunning hstep]
    exact runLoop_of_budgetSpent (budgetSpent_iff.mpr ⟨by decide, by omega⟩)
  case err =>
    obtain ⟨-, -, hfree⟩ := stepCostBounds s t hrunning hstep
    have hticks : t.tickcount = s.tickcount := hfree (by simp [ht])
    rw [hrun hrunning hstep]
    exact runLoop_of_faulted (hticks ▸ hspent) ht

end Sys2Proof.Proofs
end

section
/-!
PROOFS. Accesses and addresses: the hook calls of an access (20_memory.md section 2), words (section 3), the bytes that pushes touch
(section 6), and the addressing modes as numbers (40_execution.md section 2).
-/
namespace Sys2Proof.Machine

variable (s : State)

/-! ### Hook calls (R45, R54) -/

theorem trapsRead_iff (c : Config) (a : Word) : trapsRead c a = true ↔ a ∈ c.trapped ∧ c.hasReadHook = true := by
  simp [trapsRead, and_comm]

theorem trapsWrite_iff (c : Config) (a : Word) : trapsWrite c a = true ↔ a ∈ c.trapped ∧ c.hasWriteHook = true := by
  simp [trapsWrite, and_comm]

theorem memRead_value (a : Word) :
    (memRead s a).value =
      if trapsRead s.cfg a then (Config.readHook s.hookCalls a).getD (s.byteAt a) else s.byteAt a := by
  unfold memRead; split <;> rfl

theorem memWrite_byteAt_self (a : Word) (v : Byte) : (memWrite s a v).byteAt a = storedByte s a v := by
  obtain ⟨n, hn⟩ := memWrite_eq_setByte_storedByte s a v
  rw [hn, State.setHookCalls_byteAt, State.setByte_byteAt_self]

theorem memWrite_hookCalls (a : Word) (v : Byte) : (memWrite s a v).hookCalls = callsAfterWrite s a := by
  unfold memWrite callsAfterWrite; split <;> rfl

/-! ### Words (R49, R51) -/

theorem readWordZP_of_trapped_nil {s : State} (h : s.cfg.trapped = []) (z : Byte) :
    readWordZP s z = { value := mkWord (s.byteAt (zext16 (z + 1#8))) (s.byteAt (zext16 z)), state := s } :=
  readPair_untrapped s (trapsRead_of_trapped_nil h _) (trapsRead_of_trapped_nil h _)

/-- The number of a word of memory whose bytes lie at two addresses given as numbers. -/
theorem mkWord_byteAt_toNat {lo hi : Word} {nlo nhi : Nat} (hlo : lo.toNat = nlo) (hhi : hi.toNat = nhi) :
    (mkWord (s.byteAt hi) (s.byteAt lo)).toNat = (Memory.read s.mem nlo).toNat + 256 * (Memory.read s.mem nhi).toNat := by
  rw [mkWord_toNat, State.byteAt, State.byteAt, hlo, hhi]; omega

/-! ### Pushes (R61) -/

theorem foldl_push8_sp (vs : List Byte) : (vs.foldl push8 s).sp = s.sp - BitVec.ofNat 8 vs.length := by
  induction vs generalizing s with
  | nil => simp
  | cons v vs ih =>
    rw [List.foldl_cons, ih, push8_sp, List.length_cons, Nat.add_comm, BitVec.ofNat_add, sub_sub]

theorem foldl_push8_byteAt {a : Word} (h : a.toNat < 0x100 ∨ 0x1FF < a.toNat) (vs : List Byte) :
    (vs.foldl push8 s).byteAt a = s.byteAt a := by
  induction vs generalizing s with
  | nil => rfl
  | cons v vs ih =>
    have hne : a ≠ stackAddr s.sp := by
      rintro rfl
      have := s.sp.isLt
      rw [stackAddr_toNat] at h
      omega
    rw [List.foldl_cons, ih, push8_memoryKeptExcept s v a (by simpa using hne)]

/-! ### Indexed addresses (R92, R94, R97) -/

theorem zpIndexed_wrap8_toNat (z idx : Byte) : (zpIndexed .wrap8 z idx).toNat = (z.toNat + idx.toNat) % 256 := by
  rw [zpIndexed, zext16_toNat, BitVec.toNat_add]

theorem zpIndexed_signed16_toNat (z idx : Byte) :
    ((zpIndexed .signed16 z idx).toNat : Int) = ((z.toNat : Int) + idx.toInt) % 65536 := by
  rw [zpIndexed, BitVec.toNat_add, zext16_toNat, sext16, BitVec.toNat_ofInt]
  omega

theorem indexed_ea_toNat (base : Word) (idx : Byte) : (indexed base idx s).ea.toNat = (base.toNat + idx.toNat) % 65536 := by
  rw [indexed, BitVec.toNat_add, zext16_toNat]

theorem indexed_crossed_iff (base : Word) (idx : Byte) :
    (indexed base idx s).crossed = true ↔ base.toNat / 256 ≠ (indexed base idx s).ea.toNat / 256 := by
  rw [indexed, page_bne, decide_eq_true_iff]

end Sys2Proof.Machine

namespace Sys2Proof.Proofs
open Sys2Proof Sys2Proof.Machine

/-- Settles O18: each access is one call where its address is trapped, and what an operation adds to its accesses calls no hook. -/
theorem trappedAccessesCallHooks : Obligations.TrappedAccessesCallHooks := by
  intro s a v r m base
  have hread := trapsRead_iff s.cfg a
  have hwrite := trapsWrite_iff s.cfg a
  refine ⟨?value, ?calls, memRead_byteAt s a, ?stored, memWrite_hookCalls s a v,
    fun b hb => memWrite_byteAt_ne s v (by simpa using hb), ?load, ?store, fun op => ?step, fun op => ?shift⟩
  case value =>
    simp only [memRead_value, hread]
    cases Config.readHook s.hookCalls a <;> rfl
  case calls => simp only [memRead_state_eq, State.setHookCalls_hookCalls, hread]
  case stored => simp only [memWrite_byteAt_self, storedByte, hwrite]
  case load => simp [loadReg, loadSource]
  case store => simp [storeReg, memWrite_hookCalls]
  case step => simp [stepAt, memWrite_hookCalls]
  case shift => simp [shiftAt, memWrite_hookCalls]

/-- Settles O19: with nothing trapped a word is two bytes of memory, at addresses whose numbers wrap. -/
theorem wordsAreLittleEndianAndWrap : Obligations.WordsAreLittleEndianAndWrap := by
  intro s a z h
  rw [readWord_of_trapped_nil h, readWordZP_of_trapped_nil h]
  have hnext : (a + 1#16).toNat = (a.toNat + 1) % 65536 := BitVec.toNat_add a 1#16
  have hnextZP : (zext16 (z + 1#8)).toNat = (z.toNat + 1) % 256 := (zext16_toNat _).trans (BitVec.toNat_add z 1#8)
  exact ⟨mkWord_byteAt_toNat s rfl hnext, rfl, mkWord_byteAt_toNat s (zext16_toNat z) hnextZP, rfl⟩

/-- Settles O21: by induction on the bytes pushed; every stack address lies in page 1. -/
theorem pushesStayInPageOne : Obligations.PushesStayInPageOne := by
  intro s vs
  refine ⟨fun a ha => foldl_push8_byteAt s ha vs, foldl_push8_sp s vs, fun hlength => ?_⟩
  rw [foldl_push8_sp, hlength]
  exact sub_zero s.sp

/-- Settles O33: these modes read nothing to resolve, and a load is the MemRead at the resolved address. -/
theorem immediateAndDirectOperands : Obligations.ImmediateAndDirectOperands :=
  fun _ _ z _ _ => ⟨rfl, zext16_toNat z, rfl, rfl, rfl, rfl, rfl⟩

/-- Settles O34: both modes are `zpIndexed` of their register. -/
theorem zeroPageIndexedAddress : Obligations.ZeroPageIndexedAddress := by
  intro s z
  refine ⟨fun hmode => ?wrap8, fun hmode => ?signed16, rfl, rfl, rfl, rfl⟩
  case wrap8 => simp only [resolveEa, hmode]; exact ⟨zpIndexed_wrap8_toNat z s.x, zpIndexed_wrap8_toNat z s.y⟩
  case signed16 => simp only [resolveEa, hmode]; exact ⟨zpIndexed_signed16_toNat z s.x, zpIndexed_signed16_toNat z s.y⟩

/-- Settles O35: both modes are `indexed` of their register. -/
theorem absoluteIndexedAddress : Obligations.AbsoluteIndexedAddress :=
  fun s w => ⟨indexed_ea_toNat s w s.x, indexed_ea_toNat s w s.y, indexed_crossed_iff s w s.x, indexed_crossed_iff s w s.y,
    rfl, rfl⟩

/-- Settles O36: the pointer of (Indirect,X) is read at a sum modulo 256; (Indirect),Y is `indexed` of the pointer read. -/
theorem indirectIndexedAddresses : Obligations.IndirectIndexedAddresses := by
  intro s z
  have hpointer : z + s.x = BitVec.ofNat 8 (z.toNat + s.x.toNat) := by rw [BitVec.ofNat_add]; simp
  have hy : (readWordZP s z).state.y = s.y := readWordZP_y s z
  have hindY : resolveEa s (.indY z) = indexed (readWordZP s z).value s.y (readWordZP s z).state := by rw [← hy]; rfl
  rw [hindY, ← hpointer]
  exact ⟨rfl, rfl, rfl, indexed_ea_toNat _ _ _, indexed_crossed_iff _ _ _, rfl⟩

end Sys2Proof.Proofs
end

section
/-!
PROOFS. JSR then RTS and BRK then RTI (46_control.md sections 3 and 4): with the stack bytes not trapped, what was pushed is what is
popped.
-/
namespace Sys2Proof.Machine

/-! ### Accesses to an address that is not trapped (20_memory.md R45) -/

section
variable {s t : State} {a : Word}

theorem trapsRead_of_not_mem {c : Config} (h : a ∉ c.trapped) : trapsRead c a = false := by simp [trapsRead, h]

theorem storedByte_of_not_mem (h : a ∉ s.cfg.trapped) (v : Byte) : storedByte s a v = v := by
  simp [storedByte, trapsWrite, h]

theorem pop8_value_of_not_mem (h : stackAddr (s.sp + 1#8) ∉ s.cfg.trapped) :
    (pop8 s).value = s.byteAt (stackAddr (s.sp + 1#8)) :=
  congrArg ReadByte.value (pop8_untrapped s (trapsRead_of_not_mem h))

/-- The bytes popped are the two above SP, the low byte first (R60). -/
theorem pop16_value_of_not_mem (hlow : stackAddr (s.sp + 1#8) ∉ s.cfg.trapped)
    (hhigh : stackAddr (s.sp + 1#8 + 1#8) ∉ s.cfg.trapped) :
    (pop16 s).value = mkWord (s.byteAt (stackAddr (s.sp + 1#8 + 1#8))) (s.byteAt (stackAddr (s.sp + 1#8))) := by
  have hsecond : (pop8 (pop8 s).state).value = (pop8 s).state.byteAt (stackAddr ((pop8 s).state.sp + 1#8)) :=
    pop8_value_of_not_mem (by simpa using hhigh)
  rw [pop16_value, hsecond, pop8_value_of_not_mem hlow, pop8_sp, pop8_byteAt]

/-- A frame that names no flag leaves F. -/
theorem Frame.f_eq {rs : List Reg} (h : Frame rs [] s t) : t.f = s.f := by
  obtain ⟨-, hflags, -⟩ := h
  exact BitVec.eq_of_getLsbD_eq fun i _ => hflags i (by simp)

theorem Frame.cfg_eq {rs : List Reg} {fs : List Flag} (h : Frame rs fs s t) : t.cfg = s.cfg := by
  obtain ⟨-, -, -, -, -, hcfg⟩ := h
  exact hcfg

/-! ### What was pushed is popped (R59, R60) -/

/-- A word pushed comes back when SP, the configuration and the two stack bytes are as the push left them. -/
theorem pop16_value_of_push16 {w : Word} (hhigh : stackAddr s.sp ∉ s.cfg.trapped)
    (hlow : stackAddr (s.sp - 1#8) ∉ s.cfg.trapped) (hsp : t.sp = s.sp - 2#8) (hcfg : t.cfg = s.cfg)
    (hhighByte : t.byteAt (stackAddr s.sp) = (push16 s w).byteAt (stackAddr s.sp))
    (hlowByte : t.byteAt (stackAddr (s.sp - 1#8)) = (push16 s w).byteAt (stackAddr (s.sp - 1#8))) :
    (pop16 t).value = w := by
  have hsp1 : t.sp + 1#8 = s.sp - 1#8 := by rw [hsp]; bv_omega
  have hsp2 : t.sp + 1#8 + 1#8 = s.sp := by rw [hsp]; bv_omega
  rw [pop16_value_of_not_mem (by rwa [hsp1, hcfg]) (by rwa [hsp2, hcfg]), hsp2, hsp1, hhighByte, hlowByte,
    push16_byteAt_high, push16_byteAt_low, storedByte_of_not_mem hhigh, storedByte_of_not_mem (by simpa using hlow),
    ← lo8_eq_extract, ← hi8_eq_extract, mkWord_hi8_lo8]

end

/-- F as it was pushed with bits 4 and 5 set is F as it was, when it had the form the core keeps (10_state.md R29, R30). -/
theorem pulledFlags_pushedFlags {f : Byte} (h : FixedBits f) : pulledFlags (pushedFlags f) = f := by
  obtain ⟨h4, h5⟩ := h
  apply BitVec.eq_of_getLsbD_eq
  intro i _
  rw [getLsbD_pulledFlags, getLsbD_pushedFlags]
  by_cases hi4 : i = 4
  · subst hi4; exact h4.symm
  · by_cases hi5 : i = 5
    · subst hi5; exact h5.symm
    · simp [hi4, hi5]

/-- What trap return finds above SP after trap entry, PC and tickcount apart (60_exceptions.md R184, R185). -/
theorem trapReturn_of_trapEntry {s q : State} {ret vector : Word} (hhigh : stackAddr s.sp ∉ s.cfg.trapped)
    (hlow : stackAddr (s.sp - 1#8) ∉ s.cfg.trapped) (hflags : stackAddr (s.sp - 2#8) ∉ s.cfg.trapped)
    (hmem : q.mem = (trapEntry s ret vector).mem) (hsp : q.sp = (trapEntry s ret vector).sp) (hcfg : q.cfg = s.cfg) :
    (trapReturn q).pc = ret ∧ (trapReturn q).sp = s.sp ∧ (trapReturn q).f = pulledFlags (pushedFlags s.f) ∧
      (trapReturn q).tickcount = q.tickcount := by
  obtain ⟨hspFrame, hhighByte, hlowByte, hflagByte, -⟩ := pushTrapFrame_spec s ret
  obtain ⟨hspEntry, -, -, hkept, -⟩ := trapEntry_spec s ret vector
  obtain ⟨hf, hpc, hsp', -, -, -, hticks⟩ := trapReturn_spec q
  have hqsp : q.sp = s.sp - 3#8 := hsp.trans (hspEntry.trans hspFrame)
  have hqbyte (a : Word) : q.byteAt a = (pushTrapFrame s ret).byteAt a := by
    rw [State.byteAt, hmem]; exact hkept a
  have hsp1 : q.sp + 1#8 = s.sp - 2#8 := by rw [hqsp]; bv_omega
  refine ⟨?pc, ?sp, ?f, hticks⟩
  case pc =>
    rw [hpc]
    refine pop16_value_of_push16 hhigh hlow ?_ ?_ ?_ ?_
    · rw [pop8_sp, hsp1]
    · rw [pop8_cfg, hcfg]
    · rw [pop8_byteAt, hqbyte, hhighByte]
    · rw [pop8_byteAt, hqbyte, hlowByte]
  case sp => rw [hsp', hqsp, sub_add_cancel]
  case f =>
    have hpopped : (pop8 q).value = q.byteAt (stackAddr (q.sp + 1#8)) := pop8_value_of_not_mem (by rwa [hsp1, hcfg])
    rw [hf, hpopped, hsp1, hqbyte, hflagByte, storedByte_of_not_mem (by rwa [push16_cfg])]

end Sys2Proof.Machine

namespace Sys2Proof.Proofs
open Sys2Proof Sys2Proof.Machine

/-- Settles O57: RTS pops the word JSR pushed, PC_next - 1, and adds the 1. -/
theorem callThenReturn : Obligations.CallThenReturn := by
  intro s t w pcNext htrapped hjsr
  have hhigh : stackAddr s.sp ∉ s.cfg.trapped := fun h => have ⟨hne, _⟩ := htrapped _ h; hne rfl
  have hlow : stackAddr (s.sp - 1#8) ∉ s.cfg.trapped := fun h => have ⟨_, hne⟩ := htrapped _ h; hne rfl
  obtain rfl : ((push16 s (s.pc - 1#16)).setPc w).addTicks 6 = t := Host.Outcome.next.inj hjsr
  obtain ⟨-, hsp, -, -, -, hframe, hticks⟩ := jsr_spec s w
  generalize hq : ((push16 s (s.pc - 1#16)).setPc w).addTicks 6 = q at hsp hframe hticks ⊢
  have hpop : (pop16 (q.setPc pcNext)).value = s.pc - 1#16 :=
    pop16_value_of_push16 hhigh hlow hsp hframe.cfg_eq (by rw [← hq]; rfl) (by rw [← hq]; rfl)
  obtain ⟨hpc, hsp', hframe', -, hticks'⟩ := returnFromSubroutine_spec (q.setPc pcNext) 6
  refine ⟨_, rfl, ?pc, ?sp, hframe'.f_eq.trans hframe.f_eq, ?ticks⟩
  case pc => rw [hpc, hpop, sub_add_cancel]
  case sp => rw [hsp', State.setPc_sp, hsp, sub_add_cancel]
  case ticks => rw [hticks', State.setPc_tickcount, hticks]

/-- Settles O60: RTI pops the F and the word that trap entry pushed. -/
theorem trapThenReturn : Obligations.TrapThenReturn := by
  intro s t pcNext htrapped h5 hb hbrk
  have hhigh : stackAddr s.sp ∉ s.cfg.trapped := fun h => have ⟨hne, _⟩ := htrapped _ h; hne rfl
  have hlow : stackAddr (s.sp - 1#8) ∉ s.cfg.trapped := fun h => have ⟨_, hne, _⟩ := htrapped _ h; hne rfl
  have hflags : stackAddr (s.sp - 2#8) ∉ s.cfg.trapped := fun h => have ⟨_, _, hne⟩ := htrapped _ h; hne rfl
  obtain rfl : (trapEntry s (s.pc + 1#16) irqVector).addTicks 7 = t := Host.Outcome.next.inj hbrk
  obtain ⟨-, -, -, -, -, ⟨-, -, -, -, -, hcfg⟩, hticks⟩ := pushTrapFrame_spec s (s.pc + 1#16)
  obtain ⟨-, -, -, -, ⟨-, -, -, -, -, hcfg'⟩, hticks'⟩ := trapEntry_spec s (s.pc + 1#16) irqVector
  obtain ⟨hpc, hsp, hf, hkept⟩ := trapReturn_of_trapEntry
    (q := ((trapEntry s (s.pc + 1#16) irqVector).addTicks 7).setPc pcNext) hhigh hlow hflags rfl rfl (hcfg'.trans hcfg)
  refine ⟨_, rfl, hpc, hsp, hf.trans (pulledFlags_pushedFlags ⟨hb, h5⟩), ?ticks⟩
  case ticks => rw [State.addTicks_tickcount, hkept, State.setPc_tickcount, State.addTicks_tickcount, hticks', hticks]

end Sys2Proof.Proofs
end

section
/-!
PROOFS. What does not matter to an instruction: the waiting bits (10_state.md section 5), F.I, and F.D but for ADC and SBC (section 3).
Two states that differ in the waiting bits and in F alone are followed through every operation.
-/
namespace Sys2Proof.Machine

/-! ### Relations between two flags bytes -/

/-- A relation between two flags bytes that every flag write keeps, and under which the flags that are tested agree. -/
structure FlagRelation (P : Byte → Byte → Prop) : Prop where
  refl : ∀ f, P f f
  put : ∀ {f g} fl b, P f g → P (flagPut f fl b) (flagPut g fl b)
  test : ∀ {f g fl}, fl ∈ [Flag.n, .v, .z, .c] → P f g → flagTest g fl = flagTest f fl

theorem flagRelation_eq : FlagRelation Eq :=
  ⟨fun _ => rfl, fun _ _ h => by rw [h], fun _ h => by rw [h]⟩

/-- The two bytes agree in every bit but that of one flag. -/
def AgreeBut (fl : Flag) (f g : Byte) : Prop := ∀ i, i ≠ fl.bit → g.getLsbD i = f.getLsbD i

theorem AgreeBut.flagTest_eq {fl fl' : Flag} {f g : Byte} (h : AgreeBut fl f g) (hne : fl' ≠ fl) : flagTest g fl' = flagTest f fl' :=
  h fl'.bit fun hbit => hne (Flag.bit_injective hbit)

theorem flagRelation_agreeBut {fl : Flag} (hfl : fl ∉ [Flag.n, .v, .z, .c]) : FlagRelation (AgreeBut fl) := by
  refine ⟨fun _ _ _ => rfl, fun fl' b h i hi => ?put, fun hmem h => ?test⟩
  case put =>
    rw [getLsbD_flagPut, getLsbD_flagPut]
    split
    · rfl
    · exact h i hi
  case test => exact h.flagTest_eq fun heq => hfl (heq ▸ hmem)

theorem AgreeBut.flagPut_eq {fl : Flag} {f g : Byte} (h : AgreeBut fl f g) (b : Bool) : flagPut g fl b = flagPut f fl b := by
  apply BitVec.eq_of_getLsbD_eq
  intro i _
  rw [getLsbD_flagPut, getLsbD_flagPut]
  split
  case isTrue => rfl
  case isFalse hi => exact h i hi

theorem agreeBut_flagPut (fl : Flag) (f : Byte) (b : Bool) : AgreeBut fl f (flagPut f fl b) := fun i hi => by
  rw [getLsbD_flagPut, if_neg hi]

section
variable {P : Byte → Byte → Prop} (hP : FlagRelation P) {f g : Byte} (h : P f g)
include hP h

theorem FlagRelation.setNZ (v : Byte) : P (setNZ f v) (setNZ g v) := hP.put _ _ (hP.put _ _ h)

theorem FlagRelation.compareFlags (reg v : Byte) : P (compareFlags f reg v) (compareFlags g reg v) :=
  hP.setNZ (hP.put _ _ h) _

theorem FlagRelation.bitTestFlags (a m : Byte) : P (bitTestFlags f a m) (bitTestFlags g a m) :=
  hP.put _ _ (hP.put _ _ (hP.put _ _ h))

end

/-! ### Two states that differ in F and the waiting bits alone -/

/-- Another F and other waiting bits. -/
def withFlagsAndWaiting (g : Byte) (nmi irq : Bool) (s : State) : State :=
  { s with f := g, waitingForNmi := nmi, waitingForIrq := irq }

/-- No access reads or writes F or the waiting bits. -/
theorem outside_withFlagsAndWaiting (g : Byte) (nmi irq : Bool) : Outside (withFlagsAndWaiting g nmi irq) := by
  constructor <;> intros <;> rfl

/-- The states agree but for the waiting bits, and for F, where they are related. -/
def Alike (P : Byte → Byte → Prop) (s t : State) : Prop :=
  ∃ g nmi irq, t = withFlagsAndWaiting g nmi irq s ∧ P s.f g

section
variable {P : Byte → Byte → Prop} {s t : State} (h : Alike P s t)
include h

theorem Alike.rel_f : P s.f t.f := by obtain ⟨g, nmi, irq, rfl, hg⟩ := h; exact hg
theorem Alike.pc_eq : t.pc = s.pc := by obtain ⟨g, nmi, irq, rfl, -⟩ := h; rfl
theorem Alike.cfg_eq : t.cfg = s.cfg := by obtain ⟨g, nmi, irq, rfl, -⟩ := h; rfl
theorem Alike.status_eq : t.status = s.status := by obtain ⟨g, nmi, irq, rfl, -⟩ := h; rfl
theorem Alike.reg_eq (r : Reg) : t.reg r = s.reg r := by obtain ⟨g, nmi, irq, rfl, -⟩ := h; cases r <;> rfl
theorem Alike.a_eq : t.a = s.a := h.reg_eq .a
theorem Alike.x_eq : t.x = s.x := h.reg_eq .x

theorem Alike.flag_eq (hP : FlagRelation P) {fl : Flag} (hfl : fl ∈ [Flag.n, .v, .z, .c]) : t.flag fl = s.flag fl :=
  hP.test hfl h.rel_f

/-- Where the waiting bits agree too, the states differ in F alone. -/
theorem Alike.eq_setF (hnmi : t.waitingForNmi = s.waitingForNmi) (hirq : t.waitingForIrq = s.waitingForIrq) : t = s.setF t.f := by
  obtain ⟨g, nmi, irq, rfl, -⟩ := h
  obtain rfl : nmi = s.waitingForNmi := hnmi
  obtain rfl : irq = s.waitingForIrq := hirq
  rfl

/-! The named updates. -/

theorem Alike.setReg {r : Reg} {v : Byte} : Alike P (s.setReg r v) (t.setReg r v) := by
  obtain ⟨g, nmi, irq, rfl, hg⟩ := h
  exact ⟨g, nmi, irq, by cases r <;> rfl, by simpa using hg⟩

theorem Alike.setPc {w : Word} : Alike P (s.setPc w) (t.setPc w) := by
  obtain ⟨g, nmi, irq, rfl, hg⟩ := h; exact ⟨g, nmi, irq, rfl, hg⟩

theorem Alike.addTicks {n : Nat} : Alike P (s.addTicks n) (t.addTicks n) := by
  obtain ⟨g, nmi, irq, rfl, hg⟩ := h; exact ⟨g, nmi, irq, rfl, hg⟩

theorem Alike.setStatus {st : Status} : Alike P (s.setStatus st) (t.setStatus st) := by
  obtain ⟨g, nmi, irq, rfl, hg⟩ := h; exact ⟨g, nmi, irq, rfl, hg⟩

theorem Alike.setF {f g : Byte} (hfg : P f g) : Alike P (s.setF f) (t.setF g) := by
  obtain ⟨g', nmi, irq, rfl, -⟩ := h; exact ⟨g, nmi, irq, rfl, hfg⟩

theorem Alike.putFlag (hP : FlagRelation P) {fl : Flag} {b : Bool} : Alike P (s.putFlag fl b) (t.putFlag fl b) :=
  h.setF (hP.put fl b h.rel_f)

theorem Alike.putNZ (hP : FlagRelation P) {v : Byte} : Alike P (s.putNZ v) (t.putNZ v) := h.setF (hP.setNZ h.rel_f v)

/-! The accesses: both states read the same values, and stay alike. -/

theorem Alike.memRead (a : Word) :
    (memRead t a).value = (memRead s a).value ∧ Alike P (memRead s a).state (memRead t a).state := by
  obtain ⟨g, nmi, irq, rfl, hg⟩ := h
  rw [(outside_withFlagsAndWaiting g nmi irq).memRead]
  exact ⟨rfl, g, nmi, irq, rfl, by simpa using hg⟩

theorem Alike.readWord (a : Word) :
    (readWord t a).value = (readWord s a).value ∧ Alike P (readWord s a).state (readWord t a).state := by
  obtain ⟨g, nmi, irq, rfl, hg⟩ := h
  rw [(outside_withFlagsAndWaiting g nmi irq).readWord]
  exact ⟨rfl, g, nmi, irq, rfl, by simpa using hg⟩

theorem Alike.resolveIndirect (p : Word) :
    (resolveIndirect t p).value = (resolveIndirect s p).value ∧
      Alike P (resolveIndirect s p).state (resolveIndirect t p).state := by
  obtain ⟨g, nmi, irq, rfl, hg⟩ := h
  rw [(outside_withFlagsAndWaiting g nmi irq).resolveIndirect]
  exact ⟨rfl, g, nmi, irq, rfl, by simpa using hg⟩

theorem Alike.pop8 : (pop8 t).value = (pop8 s).value ∧ Alike P (pop8 s).state (pop8 t).state := by
  obtain ⟨g, nmi, irq, rfl, hg⟩ := h
  rw [(outside_withFlagsAndWaiting g nmi irq).pop8]
  exact ⟨rfl, g, nmi, irq, rfl, by simpa using hg⟩

theorem Alike.pop16 : (pop16 t).value = (pop16 s).value ∧ Alike P (pop16 s).state (pop16 t).state := by
  obtain ⟨g, nmi, irq, rfl, hg⟩ := h
  rw [(outside_withFlagsAndWaiting g nmi irq).pop16]
  exact ⟨rfl, g, nmi, irq, rfl, by simpa using hg⟩

theorem Alike.resolveEa (m : EaMode) :
    (resolveEa t m).ea = (resolveEa s m).ea ∧ (resolveEa t m).crossed = (resolveEa s m).crossed ∧
      Alike P (resolveEa s m).state (resolveEa t m).state := by
  obtain ⟨g, nmi, irq, rfl, hg⟩ := h
  rw [(outside_withFlagsAndWaiting g nmi irq).resolveEa]
  exact ⟨rfl, rfl, g, nmi, irq, rfl, by simpa using hg⟩

theorem Alike.loadSource (src : Source) :
    (loadSource t src).value = (loadSource s src).value ∧ (loadSource t src).crossed = (loadSource s src).crossed ∧
      Alike P (loadSource s src).state (loadSource t src).state := by
  obtain ⟨g, nmi, irq, rfl, hg⟩ := h
  rw [(outside_withFlagsAndWaiting g nmi irq).loadSource]
  exact ⟨rfl, rfl, g, nmi, irq, rfl, by simpa using hg⟩

theorem Alike.memWrite {a : Word} {v : Byte} : Alike P (memWrite s a v) (memWrite t a v) := by
  obtain ⟨g, nmi, irq, rfl, hg⟩ := h
  exact ⟨g, nmi, irq, (outside_withFlagsAndWaiting g nmi irq).memWrite s a v, by simpa using hg⟩

theorem Alike.push8 {v : Byte} : Alike P (push8 s v) (push8 t v) := by
  obtain ⟨g, nmi, irq, rfl, hg⟩ := h
  exact ⟨g, nmi, irq, (outside_withFlagsAndWaiting g nmi irq).push8 s v, by simpa using hg⟩

theorem Alike.push16 {w : Word} : Alike P (push16 s w) (push16 t w) := h.push8.push8

/-! The operations that read no F, or load it. -/

theorem Alike.branch {cond : Bool} {rel : Byte} {base : Nat} : Alike P (branch cond rel base s) (branch cond rel base t) := by
  cases cond
  · exact h.addTicks
  · rw [Machine.branch, Machine.branch, h.pc_eq]
    exact h.setPc.addTicks

theorem Alike.pullFlags (hP : FlagRelation P) : Alike P (pullFlags s) (pullFlags t) := by
  obtain ⟨hvalue, hpop⟩ := h.pop8
  simp only [Machine.pullFlags, hvalue]
  exact hpop.setF (hP.refl _)

end

/-! ### Every instruction keeps two states alike -/

/-- The meanings, as functions of the state, of every instruction but ADC, SBC, PHP and BRK. They read no flag but N, V, Z and C. -/
inductive Meaning : (State → State) → Prop where
  | load (r : Reg) (src : Source) (base : Nat) : Meaning (loadReg r src base)
  | store (r : Reg) (m : EaMode) (base : Nat) : Meaning (storeReg r m base)
  | transfer (src dst : Reg) : Meaning (transfer src dst 2)
  | txs : Meaning fun s => (s.setSp s.x).addTicks 2
  | compare (r : Reg) (src : Source) (base : Nat) : Meaning (compareReg r src base)
  | memStep (op : Byte → Byte) (m : EaMode) (base : Nat) : Meaning (stepAt op m base)
  | regStep (op : Byte → Byte) (r : Reg) : Meaning (stepReg op r 2)
  | logic (op : Byte → Byte → Byte) (src : Source) (base : Nat) : Meaning (logicA op src base)
  | bit (m : EaMode) (base : Nat) : Meaning (bitTest m base)
  | shift (op : Byte → Bool → CarryResult) (tgt : Target) (base : Nat) : Meaning (shiftAt op tgt base)
  | pha : Meaning fun s => (push8 s s.a).addTicks 3
  | pullA : Meaning (pullA 4)
  | plp : Meaning fun s => (pullFlags s).addTicks 4
  | clear (fl : Flag) : Meaning fun s => (s.setF (flagClear s.f fl)).addTicks 2
  | set (fl : Flag) : Meaning fun s => (s.setF (flagSet s.f fl)).addTicks 2
  | nop : Meaning fun s => s.addTicks 2
  | branchSet (fl : Flag) (rel : Byte) (h : fl ∈ [.n, .v, .z, .c]) : Meaning fun s => branch (s.flag fl) rel 2 s
  | branchClear (fl : Flag) (rel : Byte) (h : fl ∈ [.n, .v, .z, .c]) : Meaning fun s => branch (!s.flag fl) rel 2 s
  | jump (w : Word) : Meaning fun s => (s.setPc w).addTicks 3
  | jumpIndirect (w : Word) : Meaning (jumpIndirect w)
  | jsr (w : Word) : Meaning fun s => ((push16 s (s.pc - 1#16)).setPc w).addTicks 6
  | rts : Meaning (returnFromSubroutine 6)
  | rti : Meaning fun s => (trapReturn s).addTicks 6

/-- The opcodes of ADC and SBC (30_encoding.md R77). -/
def sumOpcodes : List Byte :=
  [0x61#8, 0x65#8, 0x69#8, 0x6D#8, 0x71#8, 0x75#8, 0x79#8, 0x7D#8, 0xE1#8, 0xE5#8, 0xE9#8, 0xED#8, 0xF1#8, 0xF5#8, 0xF9#8, 0xFD#8]

/-- Every instruction has a meaning that reads no flag but N, V, Z and C, or is an ADC or an SBC, or pushes F. -/
theorem exec_meaning (i : Instr) :
    (∃ m, (∀ s, exec i s = .next (m s)) ∧ Meaning m) ∨
      ((∃ op bin dec src base, ∀ s, exec i s = .next (addSub op bin dec src base s)) ∧
        ∃ op operand, encode i = op :: operand ∧ op ∈ sumOpcodes) ∨ i = .php ∨ i = .brk := by
  cases i
  case ldaIndX | ldaZp | ldaImm | ldaAbs | ldaIndY | ldaZpX | ldaAbsY | ldaAbsX | ldxImm | ldxZp | ldxAbs | ldxZpY |
      ldxAbsY | ldyImm | ldyZp | ldyAbs | ldyZpX | ldyAbsX =>
    exact .inl ⟨_, fun _ => rfl, .load _ _ _⟩
  case staIndX | staZp | staAbs | staIndY | staZpX | staAbsY | staAbsX | stxZp | stxAbs | stxZpY | styZp | styAbs |
      styZpX =>
    exact .inl ⟨_, fun _ => rfl, .store _ _ _⟩
  case tax | tay | txa | tya | tsx => exact .inl ⟨_, fun _ => rfl, .transfer _ _⟩
  case txs => exact .inl ⟨_, fun _ => rfl, .txs⟩
  case cmpIndX | cmpZp | cmpImm | cmpAbs | cmpIndY | cmpZpX | cmpAbsY | cmpAbsX | cpxImm | cpxZp | cpxAbs | cpyImm |
      cpyZp | cpyAbs =>
    exact .inl ⟨_, fun _ => rfl, .compare _ _ _⟩
  case incZp | incAbs | incZpX | incAbsX | decZp | decAbs | decZpX | decAbsX =>
    exact .inl ⟨_, fun _ => rfl, .memStep _ _ _⟩
  case inx | iny | dex | dey => exact .inl ⟨_, fun _ => rfl, .regStep _ _⟩
  case andIndX | andZp | andImm | andAbs | andIndY | andZpX | andAbsY | andAbsX | oraIndX | oraZp | oraImm | oraAbs |
      oraIndY | oraZpX | oraAbsY | oraAbsX | eorIndX | eorZp | eorImm | eorAbs | eorIndY | eorZpX | eorAbsY | eorAbsX
      =>
    exact .inl ⟨_, fun _ => rfl, .logic _ _ _⟩
  case bitZp | bitAbs => exact .inl ⟨_, fun _ => rfl, .bit _ _⟩
  case aslZp | aslA | aslAbs | aslZpX | aslAbsX | lsrZp | lsrA | lsrAbs | lsrZpX | lsrAbsX | rolZp | rolA | rolAbs |
      rolZpX | rolAbsX | rorZp | rorA | rorAbs | rorZpX | rorAbsX =>
    exact .inl ⟨_, fun _ => rfl, .shift _ _ _⟩
  case pha => exact .inl ⟨_, fun _ => rfl, .pha⟩
  case pla => exact .inl ⟨_, fun _ => rfl, .pullA⟩
  case plp => exact .inl ⟨_, fun _ => rfl, .plp⟩
  case clc | cli | cld | clv => exact .inl ⟨_, fun _ => rfl, .clear _⟩
  case sec | sei | sed => exact .inl ⟨_, fun _ => rfl, .set _⟩
  case nop => exact .inl ⟨_, fun _ => rfl, .nop⟩
  case bpl | bvc | bcc | bne => exact .inl ⟨_, fun _ => rfl, .branchClear _ _ (by decide)⟩
  case bmi | bvs | bcs | beq => exact .inl ⟨_, fun _ => rfl, .branchSet _ _ (by decide)⟩
  case jmpAbs => exact .inl ⟨_, fun _ => rfl, .jump _⟩
  case jmpInd => exact .inl ⟨_, fun _ => rfl, .jumpIndirect _⟩
  case jsr => exact .inl ⟨_, fun _ => rfl, .jsr _⟩
  case rts => exact .inl ⟨_, fun _ => rfl, .rts⟩
  case rti => exact .inl ⟨_, fun _ => rfl, .rti⟩
  case adcIndX | adcZp | adcImm | adcAbs | adcIndY | adcZpX | adcAbsY | adcAbsX | sbcIndX | sbcZp | sbcImm | sbcAbs |
      sbcIndY | sbcZpX | sbcAbsY | sbcAbsX => exact .inr (.inl ⟨⟨_, _, _, _, _, fun _ => rfl⟩, _, _, rfl, by decide⟩)
  case php => exact .inr (.inr (.inl rfl))
  case brk => exact .inr (.inr (.inr rfl))

theorem exec_waiting {i : Instr} {s t : State} (h : exec i s = .next t) :
    t.waitingForNmi = s.waitingForNmi ∧ t.waitingForIrq = s.waitingForIrq := by
  obtain ⟨u, hu, hshape⟩ := exec_shape i s
  obtain rfl : u = t := Host.Outcome.next.inj (hu.symm.trans h)
  obtain ⟨⟨hnmi, hirq, -⟩, -, -⟩ := hshape.keeps
  exact ⟨hnmi, hirq⟩

section
variable {P : Byte → Byte → Prop} (hP : FlagRelation P) {s t : State} (h : Alike P s t)
include hP h

theorem Meaning.alike {m : State → State} (hm : Meaning m) : Alike P (m s) (m t) := by
  cases hm with
  | load r src base =>
    obtain ⟨hvalue, hcrossed, hload⟩ := h.loadSource src
    rw [loadReg, loadReg, hvalue, hcrossed, h.cfg_eq]
    exact (hload.setReg.putNZ hP).addTicks
  | store r m base =>
    obtain ⟨hea, hcrossed, hresolve⟩ := h.resolveEa m
    rw [storeReg, storeReg, hea, hcrossed, h.cfg_eq, h.reg_eq]
    exact hresolve.memWrite.addTicks
  | transfer src dst =>
    rw [Machine.transfer, Machine.transfer, h.reg_eq]
    exact (h.setReg.putNZ hP).addTicks
  | txs =>
    simp only [h.x_eq]
    exact (h.setReg (r := .sp)).addTicks
  | compare r src base =>
    obtain ⟨hvalue, hcrossed, hload⟩ := h.loadSource src
    rw [compareReg, compareReg, hvalue, hcrossed, h.cfg_eq, h.reg_eq]
    exact (hload.setF (hP.compareFlags h.rel_f _ _)).addTicks
  | memStep op m base =>
    obtain ⟨hea, hcrossed, hresolve⟩ := h.resolveEa m
    obtain ⟨hvalue, hread⟩ := hresolve.memRead (resolveEa s m).ea
    simp only [stepAt, hea, hcrossed, h.cfg_eq, hvalue]
    exact (hread.memWrite.putNZ hP).addTicks
  | regStep op r =>
    rw [stepReg, stepReg, h.reg_eq]
    exact (h.setReg.putNZ hP).addTicks
  | logic op src base =>
    obtain ⟨hvalue, hcrossed, hload⟩ := h.loadSource src
    rw [logicA, logicA, hvalue, hcrossed, h.cfg_eq, h.a_eq]
    exact ((hload.setReg (r := .a)).putNZ hP).addTicks
  | bit m base =>
    obtain ⟨hvalue, hcrossed, hload⟩ := h.loadSource (.mem m)
    rw [bitTest, bitTest, hvalue, hcrossed, h.cfg_eq, h.a_eq]
    exact (hload.setF (hP.bitTestFlags h.rel_f _ _)).addTicks
  | shift op tgt base =>
    have hc : t.flag .c = s.flag .c := h.flag_eq hP (by decide)
    cases tgt with
    | acc =>
      simp only [shiftAt, hc, h.a_eq]
      exact (((h.setReg (r := .a)).putFlag hP).putNZ hP).addTicks
    | mem m =>
      obtain ⟨hea, hcrossed, hresolve⟩ := h.resolveEa m
      obtain ⟨hvalue, hread⟩ := hresolve.memRead (resolveEa s m).ea
      simp only [shiftAt, hea, hcrossed, h.cfg_eq, hvalue, hc]
      exact ((hread.memWrite.putFlag hP).putNZ hP).addTicks
  | pha =>
    simp only [h.a_eq]
    exact h.push8.addTicks
  | pullA =>
    obtain ⟨hvalue, hpop⟩ := h.pop8
    rw [Machine.pullA, Machine.pullA, hvalue]
    exact ((hpop.setReg (r := .a)).putNZ hP).addTicks
  | plp => exact (h.pullFlags hP).addTicks
  | clear fl => exact (h.putFlag hP (b := false)).addTicks
  | set fl => exact (h.putFlag hP (b := true)).addTicks
  | nop => exact h.addTicks
  | branchSet fl rel hfl =>
    simp only [h.flag_eq hP hfl]
    exact h.branch
  | branchClear fl rel hfl =>
    simp only [h.flag_eq hP hfl]
    exact h.branch
  | jump w => exact h.setPc.addTicks
  | jumpIndirect w =>
    obtain ⟨hvalue, hresolve⟩ := h.resolveIndirect w
    rw [Machine.jumpIndirect, Machine.jumpIndirect, hvalue, h.cfg_eq]
    exact hresolve.setPc.addTicks
  | jsr w =>
    simp only [h.pc_eq]
    exact h.push16.setPc.addTicks
  | rts =>
    obtain ⟨hvalue, hpop⟩ := h.pop16
    rw [returnFromSubroutine, returnFromSubroutine, hvalue]
    exact hpop.setPc.addTicks
  | rti =>
    obtain ⟨hvalue, hpop⟩ := (h.pullFlags hP).pop16
    simp only [trapReturn, hvalue]
    exact hpop.setPc.addTicks

theorem Alike.addSub (hd : t.flag .d = s.flag .d) {op : DecimalOp} {bin : Byte → Byte → Bool → BinaryResult}
    {dec : Byte → Byte → Bool → CarryResult} {src : Source} {base : Nat} :
    Alike P (addSub op bin dec src base s) (addSub op bin dec src base t) := by
  obtain ⟨hvalue, hcrossed, hload⟩ := h.loadSource src
  have hc : t.flag .c = s.flag .c := h.flag_eq hP (by decide)
  have hv : t.flag .v = s.flag .v := h.flag_eq hP (by decide)
  have hput {r : CarryResult} {v : Bool} : Alike P (putSum (Machine.loadSource s src).state r v)
      (putSum (Machine.loadSource t src).state r v) := (((hload.setReg (r := .a)).putFlag hP).putFlag hP).putNZ hP
  simp only [Machine.addSub, hvalue, hcrossed, h.cfg_eq, h.a_eq, hc, hv, hd]
  split
  · exact hput.addTicks
  · exact hput.addTicks

/-- PHP and BRK push a copy of F: their states stay alike where the copies are equal. -/
theorem Alike.trapEntry (hpush : pushedFlags t.f = pushedFlags s.f) {ret vector : Word} :
    Alike P (trapEntry s ret vector) (trapEntry t ret vector) := by
  have hpushed := (h.push16 (w := ret)).push8 (v := pushedFlags s.f)
  obtain ⟨hvalue, hread⟩ := (hpushed.putFlag hP (fl := .i) (b := true)).readWord vector
  simp only [Machine.trapEntry, hpush, hvalue]
  exact hread.setPc

/-- Two alike states stay alike under an instruction, if F.D is alike for ADC and SBC, and the pushed copy of F for PHP and BRK. -/
theorem Alike.exec {i : Instr} (hsum : (∃ op operand, encode i = op :: operand ∧ op ∈ sumOpcodes) → t.flag .d = s.flag .d)
    (hpush : i = .php ∨ i = .brk → pushedFlags t.f = pushedFlags s.f) :
    ∃ s' t', exec i s = .next s' ∧ exec i t = .next t' ∧ Alike P s' t' := by
  obtain ⟨m, hexec, hm⟩ | ⟨⟨op, bin, dec, src, base, hexec⟩, hopcode⟩ | rfl | rfl := exec_meaning i
  · exact ⟨m s, m t, hexec s, hexec t, hm.alike hP h⟩
  · exact ⟨_, _, hexec s, hexec t, h.addSub hP (hsum hopcode)⟩
  · refine ⟨_, _, rfl, rfl, ?_⟩
    rw [hpush (.inl rfl)]
    exact h.push8.addTicks
  · refine ⟨_, _, rfl, rfl, ?_⟩
    rw [h.pc_eq]
    exact (h.trapEntry hP (hpush (.inr rfl))).addTicks

end

/-- A flag that is not tested is inert for every instruction that does not push it, F.D also for one that does not add. -/
theorem exec_putFlag {fl : Flag} (hfl : fl ∉ [Flag.n, .v, .z, .c]) {i : Instr} (s : State) (b : Bool)
    (hsum : (∃ op operand, encode i = op :: operand ∧ op ∈ sumOpcodes) → fl ≠ .d) (hpush : i ≠ .php ∧ i ≠ .brk) :
    ∃ t u, exec i s = .next t ∧ exec i (s.putFlag fl b) = .next u ∧ u.putFlag fl false = t.putFlag fl false := by
  have hs : Alike (AgreeBut fl) s (s.putFlag fl b) :=
    ⟨_, s.waitingForNmi, s.waitingForIrq, rfl, agreeBut_flagPut fl s.f b⟩
  obtain ⟨t, u, ht, hu, htu⟩ := hs.exec (flagRelation_agreeBut hfl)
    (i := i) (fun hi => hs.rel_f.flagTest_eq (hsum hi).symm) (fun hi => absurd hi (not_or.mpr hpush))
  refine ⟨t, u, ht, hu, ?_⟩
  obtain ⟨hnmi, hirq⟩ := exec_waiting ht
  obtain ⟨hnmi', hirq'⟩ := exec_waiting hu
  rw [htu.eq_setF (hnmi'.trans hnmi.symm) (hirq'.trans hirq.symm), State.putFlag_eq, State.setF_f, htu.rel_f.flagPut_eq]
  rfl

/-! ### The step (R84) -/

section
variable {P : Byte → Byte → Prop} {s t : State} (h : Alike P s t)
include h

theorem Alike.fetchByte : (fetchByte t).value = (fetchByte s).value ∧ Alike P (fetchByte s).state (fetchByte t).state := by
  obtain ⟨hvalue, hread⟩ := h.memRead s.pc
  simp only [Machine.fetchByte, h.pc_eq, hread.pc_eq]
  exact ⟨hvalue, hread.setPc⟩

/-- Alike states fetch the same, and are alike after it. -/
theorem Alike.fetch :
    (∃ byte s' t', fetch s = .illegal byte s' ∧ fetch t = .illegal byte t' ∧ Alike P s' t') ∨
      (∃ i s' t', fetch s = .instr i s' ∧ fetch t = .instr i t' ∧ Alike P s' t') := by
  obtain ⟨hvalue, hread⟩ : (Machine.memRead t t.pc).value = (Machine.memRead s s.pc).value ∧
      Alike P (Machine.memRead s s.pc).state (Machine.memRead t t.pc).state := by
    rw [h.pc_eq]; exact h.memRead s.pc
  have hentry : decodeByte (Machine.memRead t t.pc).value = decodeByte (Machine.memRead s s.pc).value := congrArg _ hvalue
  have hnext : Alike P ((Machine.memRead s s.pc).state.setPc (s.pc + 1#16))
      ((Machine.memRead t t.pc).state.setPc (t.pc + 1#16)) := h.pc_eq ▸ hread.setPc
  cases he : decodeByte (Machine.memRead s s.pc).value with
  | illegal =>
    exact .inl ⟨_, _, _, fetch_of_illegal he, by rw [fetch_of_illegal (hentry.trans he), hvalue], hread⟩
  | one i => exact .inr ⟨i, _, _, fetch_of_one he, fetch_of_one (hentry.trans he), hnext⟩
  | two mk =>
    obtain ⟨hv, hbyte⟩ := hnext.fetchByte
    exact .inr ⟨_, _, _, fetch_of_two he, by rw [fetch_of_two (hentry.trans he), hv], hbyte⟩
  | three mk =>
    obtain ⟨hlow, hbyte⟩ := hnext.fetchByte
    obtain ⟨hhigh, hbyte'⟩ := hbyte.fetchByte
    exact .inr ⟨_, _, _, fetch_of_three he, by rw [fetch_of_three (hentry.trans he), hlow, hhigh], hbyte'⟩

end

/-- States with one F and other waiting bits step to states that differ in those alone. -/
theorem Alike.step {s t u : State} (h : Alike Eq s t) (hstep : step s = .next u) : ∃ v, step t = .next v ∧ Alike Eq u v := by
  have hrunning := running_of_step_next hstep
  have hrunning' : t.status = .running := h.status_eq.trans hrunning
  obtain ⟨byte, s', t', hs, ht, h'⟩ | ⟨i, s', t', hs, ht, h'⟩ := h.fetch
  · simp only [Machine.step, hrunning, hs] at hstep
    obtain rfl := Host.Outcome.next.inj hstep
    refine ⟨takeIllegalOpcode t' s.pc byte, ?_, h'.setStatus⟩
    simp only [Machine.step, hrunning', ht, h.pc_eq]
  · rw [step_of_fetch_instr hrunning hs] at hstep
    have hf : s'.f = t'.f := h'.rel_f
    obtain ⟨u', v, hu, hv, huv⟩ := h'.exec flagRelation_eq (i := i) (fun _ => congrArg (flagTest · .d) hf.symm)
      (fun _ => congrArg pushedFlags hf.symm)
    obtain rfl : u = u' := Host.Outcome.next.inj (hstep.symm.trans hu)
    exact ⟨v, (step_of_fetch_instr hrunning' ht).trans hv, huv⟩

theorem alike_hostSetWaiting (s : State) (nmi irq : Bool) : Alike Eq s (hostSetWaiting s nmi irq) :=
  ⟨s.f, nmi, irq, rfl, rfl⟩

theorem Alike.eq_hostSetWaiting {s t : State} (h : Alike Eq s t) : t = hostSetWaiting s t.waitingForNmi t.waitingForIrq := by
  obtain ⟨g, nmi, irq, rfl, rfl⟩ := h
  rfl

/-- reset() reads its vector and writes registers, in the same way whatever the waiting bits are (70_reset_and_hazards.md R199). -/
theorem hostReset_hostSetWaiting (s : State) (nmi irq : Bool) :
    hostReset (hostSetWaiting s nmi irq) = hostSetWaiting (hostReset s) nmi irq := by
  have hregisters : resetRegisters (hostSetWaiting s nmi irq) = hostSetWaiting (resetRegisters s) nmi irq := rfl
  rw [hostReset_eq_resetRegisters, hregisters, (outside_hostSetWaiting nmi irq).readWord]
  rfl

end Sys2Proof.Machine

namespace Sys2Proof.Proofs
open Sys2Proof Sys2Proof.Machine

/-- Settles O13: the two runs are alike at every access, and each keeps the waiting bits it began with. -/
theorem waitingBitsAreInert : Obligations.WaitingBitsAreInert := by
  refine ⟨fun s t nmi irq hstep => ?step, fun s nmi irq => ⟨hostReset_hostSetWaiting s nmi irq, ?reset⟩, ?construct⟩
  case step =>
    obtain ⟨v, hv, htv⟩ := (alike_hostSetWaiting s nmi irq).step hstep
    have heffect := step_effect hv
    have hv' : v = hostSetWaiting t nmi irq := by
      rw [htv.eq_hostSetWaiting, heffect.waitingForNmi, heffect.waitingForIrq]; rfl
    exact ⟨hv' ▸ hv, (step_effect hstep).waitingForNmi, (step_effect hstep).waitingForIrq⟩
  case reset =>
    obtain ⟨-, -, -, -, -, -, -, -, -, hnmi, hirq, -⟩ := resetOperation s
    exact ⟨hnmi, hirq⟩
  case construct => exact fun _ _ _ _ _ _ _ _ => ⟨rfl, rfl⟩

/-- Settles O15: the listed opcodes are those of ADC, SBC, PHP and BRK, and no other instruction reads F.D. -/
theorem decimalFlagOnlyAffectsAddAndSubtract : Obligations.DecimalFlagOnlyAffectsAddAndSubtract := by
  intro i s b hopcode
  have hnotListed {op : Byte} {operand : List Byte} (hencode : encode i = op :: operand) : op ∉ sumOpcodes ++ [0x08#8, 0x00#8] :=
    hopcode op operand hencode
  refine exec_putFlag (by decide) s b (fun ⟨op, operand, hencode, hop⟩ => ?sum) ⟨?php, ?brk⟩
  case sum => exact absurd (List.mem_append_left _ hop) (hnotListed hencode)
  case php => rintro rfl; exact hnotListed (rfl : encode .php = [0x08#8]) (by decide)
  case brk => rintro rfl; exact hnotListed (rfl : encode .brk = [0x00#8]) (by decide)

/-- Settles O16: no instruction tests F.I, and only PHP and BRK push it. -/
theorem interruptFlagIsInert : Obligations.InterruptFlagIsInert :=
  fun _ s b hphp hbrk => exec_putFlag (by decide) s b (fun _ => by decide) ⟨hphp, hbrk⟩

end Sys2Proof.Proofs
end
